-- ==== Sys2Proof/Word.lean ====
section
/-! DEFINITION. The words of the PE and nothing else: bytes, 16-bit words, 32-bit host words. -/

namespace Sys2Proof

/-- A byte of a frame, a handle, a counter (spec/00_scope.md R6). -/
abbrev Byte := BitVec 8

/-- A reading register or a request word (R6). -/
abbrev Half := BitVec 16

/-- A word of the host register port or a DONE result (R6). -/
abbrev Word := BitVec 32

end Sys2Proof
end

