-- ==== Sys2Proof/Syntax.lean ====
section
/-! DEFINITION. The command kinds (spec/30_encoding.md R82) and the instructions: one constructor per row of
spec/opcode_table.json. -/

namespace Sys2Proof

/-- The eight command kinds of R82; their codes are `Machine.kindCode`. -/
inductive Kind where
  | queryPm | getMode | setMode | getSleep | setSleep | getFirmware | getPeriod | setPeriod
  deriving DecidableEq, Repr

/-- What the PE does is one event at a time. The EV3 rows are the events themselves, their operands raw; a REQ16
row is a REQ event seen with its request word decoded, an RX10 row an RX event seen with its frame decoded
(log entry 21). Operands named `x<n>` are the inbound bytes `F[n]` that no decoder reads (R87): they enter the
checksum and nothing else. -/
inductive Instr where
  -- REQ16: request words (R81 to R83)
  /-- QUERY_PM, R210. -/
  | queryPm
  /-- GET_MODE, R211. -/
  | getMode
  /-- SET_MODE, R212: 0 active, 1 query. -/
  | setMode (arg : Byte)
  /-- GET_SLEEP, R213. -/
  | getSleep
  /-- SET_SLEEP, R214: 0 sleep, 1 work. -/
  | setSleep (arg : Byte)
  /-- GET_FIRMWARE, R215. -/
  | getFirmware
  /-- GET_PERIOD, R216. -/
  | getPeriod
  /-- SET_PERIOD, R217: minutes 0..30. -/
  | setPeriod (arg : Byte)
  /-- Every other request word, R92, R183. -/
  | reqIllegal (word : Half)
  -- RX10: inbound frames (R86, R87)
  /-- PM reading frame, R151: channel A low and high, channel B low and high. -/
  | rxPm (aLo aHi bLo bHi x6 x7 : Byte)
  /-- Mode response, R153. -/
  | rxMode (x3 mode x5 x6 x7 : Byte)
  /-- Sleep response, R154. -/
  | rxSleep (x3 sleep x5 x6 x7 : Byte)
  /-- Firmware response, R155. -/
  | rxFirmware (year month day x6 x7 : Byte)
  /-- Working-period response, R156. -/
  | rxPeriod (x3 minutes x5 x6 x7 : Byte)
  /-- A valid settings response with an unknown setting id, R157. -/
  | rxUnknownSetting (setting x3 x4 x5 x6 x7 : Byte)
  /-- A valid frame of unknown type, R157; its `F[2]` is reported in RXERR. -/
  | rxUnknownType (ty setting x3 x4 x5 x6 x7 : Byte)
  /-- A frame that fails the validator, R141, R143. -/
  | rxInvalid (frame : List Byte)
  -- EV3: events (R91)
  /-- RESET, R270 to R272. -/
  | reset
  /-- REQ with its raw request word, R181. -/
  | req (word : Half)
  /-- RX with the frame the transport delivered, R140. -/
  | rx (frame : List Byte)
  /-- TICK of the retry timer, R190. -/
  | tick
  /-- CLOSE, R200. -/
  | close
  /-- RD of a host register, R205. -/
  | rd (regno : Byte)
  deriving DecidableEq, Repr

end Sys2Proof
end

