-- ==== Sys2Proof/Config.lean ====
section
/-! DEFINITION. The implementation parameters of spec/00_scope.md R5. They are fixed for a run (R273). The model
holds them as plain data that no event changes (State.cfg), so a statement about every state is a statement about
every value of every parameter (log entry 1). -/

namespace Sys2Proof

/-- `ON_UNKNOWN`: what a valid frame of unknown type or setting does beyond `last_rx` (R157). -/
inductive OnUnknown where
  | propagate | ignore
  deriving DecidableEq, Repr

/-- `CLOSE_POLICY`: what CLOSE does to pending commands (R200). -/
inductive ClosePolicy where
  | failPending | abandon
  deriving DecidableEq, Repr

/-- The parameters of R5. -/
structure Config where
  /-- `ALLOWED_RETRIES`, N: most execute/check cycles of one command, 0..254. -/
  allowedRetries : Byte
  /-- `RETRY_INTERVAL`, above 0 time units; no rule depends on its value (R289). -/
  retryInterval : Nat
  onUnknown : OnUnknown
  closePolicy : ClosePolicy
  /-- `QDEPTH`: capacity of the command queue, 1..255. -/
  qdepth : Byte
  /-- `BOOT_KIND`: the kind of the bootstrap command (R272). -/
  bootKind : Kind
  /-- `QUERY_SETTING_ID`: the setting id `QUERY_PM` sends (R85). -/
  querySettingId : Byte
  deriving DecidableEq, Repr

/-- The ranges of R5. -/
abbrev Config.WF (c : Config) : Prop :=
  c.allowedRetries.toNat ≤ 254 ∧ 0 < c.retryInterval ∧ 1 ≤ c.qdepth.toNat

/-- R5's values where it gives one. DESIGN CHOICE for the three OPEN parameters (log entry 1): the values that
spec/95_test_vectors.md takes for ALLOWED_RETRIES and ON_UNKNOWN, and an interval of one time unit. -/
def Config.standard : Config where
  allowedRetries := 3
  retryInterval := 1
  onUnknown := .propagate
  closePolicy := .failPending
  qdepth := 8
  bootKind := .queryPm
  querySettingId := 0x04

end Sys2Proof
end

