-- ==== Sys2Proof/Machine/Checksum.lean ====
section
/-! DEFINITION. The checksum unit (spec/40_checksum.md R120 to R126): pure functions of a byte sequence. -/

namespace Sys2Proof.Machine

/-- R120: the sum modulo 256; every carry out of bit 7 is dropped. -/
def sum8 : List Byte → Byte
  | [] => 0
  | b :: bs => b + sum8 bs

/-- `F[i]` (R7). Read only at offsets the frame has: every user has tested the length first. -/
def byteAt (F : List Byte) (i : Nat) : Byte := F.getD i 0

/-- `F[a..b]`, both ends included (R7); empty when `b < a`. -/
def slice (F : List Byte) (a b : Nat) : List Byte := (F.drop a).take (b + 1 - a)

/-- R121 `CK_IN`: the fixed inbound window `F[2..7]`. -/
def ckIn (F : List Byte) : Byte := sum8 (slice F 2 7)

/-- R122 `CK_IN_OK`, the inbound checksum test. -/
def ckInOk (F : List Byte) : Bool := byteAt F 8 == ckIn F

/-- The one error of the checksum unit: the variable window of a frame shorter than 4 bytes (R123, R240 `WINDOW`).
No event of the PE meets it (log entry 18). -/
inductive CkError where
  | window
  deriving DecidableEq, Repr

/-- R123 `CK_VAR`: the length-relative window `F[2..L-3]`. -/
def ckVar (F : List Byte) : Except CkError Byte :=
  if F.length < 4 then .error .window else .ok (sum8 (slice F 2 (F.length - 3)))

/-- R124 `CK_OUT`: the variable window of a 19-byte frame, `F[2..16]`. -/
def ckOut (F : List Byte) : Byte := sum8 (slice F 2 16)

/-- R126 `ADD_CHECKSUM`: writes the variable-window checksum at `F[L-2]` and nothing else. -/
def addChecksum (F : List Byte) : Except CkError (List Byte) :=
  match ckVar F with
  | .ok c => .ok (F.set (F.length - 2) c)
  | .error e => .error e

end Sys2Proof.Machine
end

