-- ==== Sys2Proof/Machine/Frame.lean ====
section
/-! DEFINITION. Frames: the inbound validator (spec/41_frame_decode.md R141, R144) and the outbound frame builder
(spec/42_command_queue.md R188, spec/30_encoding.md R84, R85). Pure functions. -/

namespace Sys2Proof.Machine

/-- What `validate` returns (R141). -/
inductive FrameCheck where
  | valid | malformed | checksumMismatch
  deriving DecidableEq, Repr

/-- R141: length, header, tail, checksum, in this order; the first test that fails decides. -/
def validate (F : List Byte) : FrameCheck :=
  if F.length ≠ 10 then .malformed
  else if byteAt F 0 ≠ 0xAA then .malformed
  else if byteAt F 9 ≠ 0xAB then .malformed
  else if ckInOk F = false then .checksumMismatch
  else .valid

/-- R144: the Boolean form of the validator. -/
def validateInbound (F : List Byte) : Bool := validate F == .valid

/-- R63, R96, R151: a reading from its low and its high byte. -/
def pair (lo hi : Byte) : Half := lo.setWidth 16 + 256 * hi.setWidth 16

/-- R85, column SID. -/
def sid (querySettingId : Byte) : Kind → Byte
  | .queryPm => querySettingId
  | .getMode | .setMode => 0x02
  | .getSleep | .setSleep => 0x06
  | .getFirmware => 0x07
  | .getPeriod | .setPeriod => 0x08

/-- R85, column WF: 0x00 reads, 0x01 writes. -/
def writeFlag : Kind → Byte
  | .queryPm | .getMode | .getSleep | .getFirmware | .getPeriod => 0x00
  | .setMode | .setSleep | .setPeriod => 0x01

/-- R85, R96, column DATA: the argument byte unchanged for the SET kinds, 0x00 otherwise. -/
def dataByte : Kind → Byte → Byte
  | .setMode, a | .setSleep, a | .setPeriod, a => a
  | .queryPm, _ | .getMode, _ | .getSleep, _ | .getFirmware, _ | .getPeriod, _ => 0x00

/-- R84, R188: the 19 bytes before `ADD_CHECKSUM` writes offset 17. -/
def layout (querySettingId : Byte) (k : Kind) (arg : Byte) : List Byte :=
  [0xAA, 0xB4, sid querySettingId k, writeFlag k, dataByte k arg,
   0x00, 0x00, 0x00, 0x00, 0x00, 0x00, 0x00, 0x00, 0x00, 0x00, 0xFF, 0xFF, 0x00, 0xAB]

/-- R188 `build`. The error branch is not reachable: the layout has 19 bytes (log entry 18). -/
def build (querySettingId : Byte) (k : Kind) (arg : Byte) : List Byte :=
  match addChecksum (layout querySettingId k arg) with
  | .ok F => F
  | .error .window => layout querySettingId k arg

end Sys2Proof.Machine
end

