-- ==== Sys2Proof/Machine/Operands.lean ====
section
/-! DEFINITION. The operands of the events: the fields of a request word, the kind codes and the legal arguments
(spec/30_encoding.md R81 to R83, R92; spec/42_command_queue.md R183), and the bytes of a word. Pure functions. -/

namespace Sys2Proof.Machine

/-- The low byte of a 16-bit word. -/
def loByte (w : Half) : Byte := w.extractLsb' 0 8

/-- The high byte of a 16-bit word. -/
def hiByte (w : Half) : Byte := w.extractLsb' 8 8

/-- The 16-bit word of a high and a low byte. -/
def halfOf (lo hi : Byte) : Half := hi ++ lo

/-- R82: the 4-bit code of a kind. -/
def kindCode : Kind → BitVec 4
  | .queryPm => 0x0
  | .getMode => 0x1
  | .setMode => 0x2
  | .getSleep => 0x3
  | .setSleep => 0x4
  | .getFirmware => 0x5
  | .getPeriod => 0x6
  | .setPeriod => 0x7

/-- R82: the kind of a code; 0x8 to 0xF are reserved. -/
def kindOfCode (c : BitVec 4) : Option Kind :=
  if c = 0x0 then some .queryPm
  else if c = 0x1 then some .getMode
  else if c = 0x2 then some .setMode
  else if c = 0x3 then some .getSleep
  else if c = 0x4 then some .setSleep
  else if c = 0x5 then some .getFirmware
  else if c = 0x6 then some .getPeriod
  else if c = 0x7 then some .setPeriod
  else none

/-- R81: `w[15:12]`. -/
def rsvField (w : Half) : BitVec 4 := w.extractLsb' 12 4

/-- R81: `w[11:8]`. -/
def kindField (w : Half) : BitVec 4 := w.extractLsb' 8 4

/-- R81: `w[7:0]`. -/
def argField (w : Half) : Byte := w.extractLsb' 0 8

/-- R83: the legal arguments of a kind. -/
def argLegal : Kind → Byte → Bool
  | .setMode, a | .setSleep, a => a == 0 || a == 1
  | .setPeriod, a => a.toNat ≤ 30
  | .queryPm, a | .getMode, a | .getSleep, a | .getFirmware, a | .getPeriod, a => a == 0

/-- R183: the kind and the argument of a legal request word, nothing for an illegal one. -/
def requestOf (w : Half) : Option (Kind × Byte) :=
  if rsvField w ≠ 0 then none
  else
    match kindOfCode (kindField w) with
    | none => none
    | some k => if argLegal k (argField w) then some (k, argField w) else none

/-- R183 `legal(w)`. -/
def legal (w : Half) : Bool := (requestOf w).isSome

/-- R81: the request word of a kind and an argument, `RSV` 0. -/
def reqWord (k : Kind) (arg : Byte) : Half := (0#4 ++ kindCode k) ++ arg

end Sys2Proof.Machine
end

