-- ==== Sys2Proof/WellFormed.lean ====
section
/-! DEFINITION. Which instructions an input can carry: the operand ranges of the opcode table's rows. The meanings
are total on the other terms as well (log entry 14). -/

namespace Sys2Proof

/-- The operand checks, row by row. -/
def Instr.wellFormed : Instr → Bool
  | .queryPm | .getMode | .getSleep | .getFirmware | .getPeriod => true
  | .setMode a => Machine.argLegal .setMode a
  | .setSleep a => Machine.argLegal .setSleep a
  | .setPeriod a => Machine.argLegal .setPeriod a
  | .reqIllegal w => !Machine.legal w
  | .rxPm _ _ _ _ _ _ => true
  | .rxMode _ _ _ _ _ => true
  | .rxSleep _ _ _ _ _ => true
  | .rxFirmware _ _ _ _ _ => true
  | .rxPeriod _ _ _ _ _ => true
  | .rxUnknownSetting st _ _ _ _ _ => st != 0x02 && st != 0x06 && st != 0x07 && st != 0x08
  | .rxUnknownType ty _ _ _ _ _ _ => ty != 0xC0 && ty != 0xC5
  | .rxInvalid F => decide (F.length ≤ 255) && !Machine.validateInbound F
  | .rx F => decide (F.length ≤ 255)
  | .reset | .tick | .close => true
  | .req _ => true
  | .rd _ => true

/-- An instruction some input carries. -/
abbrev Instr.WF (i : Instr) : Prop := i.wellFormed = true

end Sys2Proof
end

