-- ==== Sys2Proof/Decode.lean ====
section
/-! DEFINITION. The decoder, total on any bytes and rejecting by name, and after it the encoder. An input item names
the record format of the opcode table it is in and holds its bytes (log entry 10): a REQ16 item is the request word,
low byte first; an RX10 item is a frame, offset 0 first (spec/20_memory.md R62); an EV3 item is the event code of
R91 in one byte, then the operands: the word of REQ (low byte first), the length byte and the bytes of RX, the
register number of RD. -/

namespace Sys2Proof

/-- The three formats of spec/opcode_table.json. -/
inductive Format where
  | req16 | rx10 | ev3
  deriving DecidableEq, Repr

/-- One input item: its format and its bytes, the first on the wire first. -/
structure Input where
  format : Format
  bytes  : List Byte
  deriving DecidableEq, Repr

/-- Why an input item is no event of the PE. -/
inductive DecodeError where
  /-- An EV3 item whose code is 6 or 7 (R91, R94: they name no event). -/
  | reservedEventCode
  /-- An EV3 item whose first byte is no 3-bit code, or that has no first byte. -/
  | noEventCode
  /-- An EV3 item with too few or too many operand bytes for its event. -/
  | operandLength
  /-- A REQ16 item that is not 16 bits long (R95). -/
  | requestLength
  /-- A frame longer than the 255 bytes an RX event can carry (R86). -/
  | frameTooLong
  deriving DecidableEq, Repr

open Machine

/-- The instruction of a legal request (R82). -/
def instrOfRequest : Kind → Byte → Instr
  | .queryPm, _ => .queryPm
  | .getMode, _ => .getMode
  | .setMode, a => .setMode a
  | .getSleep, _ => .getSleep
  | .setSleep, a => .setSleep a
  | .getFirmware, _ => .getFirmware
  | .getPeriod, _ => .getPeriod
  | .setPeriod, a => .setPeriod a

/-- R183: the row of a request word. -/
def instrOfWord (w : Half) : Instr :=
  match requestOf w with
  | some (k, a) => instrOfRequest k a
  | none => .reqIllegal w

/-- R150: the row of a valid frame, from its type byte and its payload `F[2..7]`. -/
def instrOfPayload (ty p2 p3 p4 p5 p6 p7 : Byte) : Instr :=
  if ty = 0xC0 then .rxPm p2 p3 p4 p5 p6 p7
  else if ty = 0xC5 then
    if p2 = 0x02 then .rxMode p3 p4 p5 p6 p7
    else if p2 = 0x06 then .rxSleep p3 p4 p5 p6 p7
    else if p2 = 0x07 then .rxFirmware p3 p4 p5 p6 p7
    else if p2 = 0x08 then .rxPeriod p3 p4 p5 p6 p7
    else .rxUnknownSetting p2 p3 p4 p5 p6 p7
  else .rxUnknownType ty p2 p3 p4 p5 p6 p7

/-- R141, R150: the row of a frame. -/
def instrOfFrame (F : List Byte) : Instr :=
  if validateInbound F then
    instrOfPayload (byteAt F 1) (byteAt F 2) (byteAt F 3) (byteAt F 4) (byteAt F 5) (byteAt F 6) (byteAt F 7)
  else .rxInvalid F

/-- A REQ16 item. -/
def decodeRequest : List Byte → Except DecodeError Instr
  | [lo, hi] => .ok (instrOfWord (halfOf lo hi))
  | _ => .error .requestLength

/-- An RX10 item. -/
def decodeFrame (F : List Byte) : Except DecodeError Instr :=
  if F.length ≤ 255 then .ok (instrOfFrame F) else .error .frameTooLong

/-- An event that takes no operand. -/
def noOperand (i : Instr) : List Byte → Except DecodeError Instr
  | [] => .ok i
  | _ :: _ => .error .operandLength

/-- The operand of REQ: a request word. -/
def reqOperand : List Byte → Except DecodeError Instr
  | [lo, hi] => .ok (.req (halfOf lo hi))
  | _ => .error .operandLength

/-- The operands of RX: a length byte and that many bytes (R86). -/
def rxOperand : List Byte → Except DecodeError Instr
  | [] => .error .operandLength
  | n :: F => if F.length = n.toNat then .ok (.rx F) else .error .operandLength

/-- The operand of RD: a register number. -/
def rdOperand : List Byte → Except DecodeError Instr
  | [n] => .ok (.rd n)
  | _ => .error .operandLength

/-- An EV3 item (R91). -/
def decodeEvent : List Byte → Except DecodeError Instr
  | [] => .error .noEventCode
  | c :: ops =>
    if c = 0 then noOperand .reset ops
    else if c = 1 then reqOperand ops
    else if c = 2 then rxOperand ops
    else if c = 3 then noOperand .tick ops
    else if c = 4 then noOperand .close ops
    else if c = 5 then rdOperand ops
    else if c = 6 ∨ c = 7 then .error .reservedEventCode
    else .error .noEventCode

/-- The decoder. -/
def decode (x : Input) : Except DecodeError Instr :=
  match x.format with
  | .req16 => decodeRequest x.bytes
  | .rx10 => decodeFrame x.bytes
  | .ev3 => decodeEvent x.bytes

/-! The encoder, from the same tables. -/

/-- A request word as an input item. -/
def encodeWord (w : Half) : Input := ⟨.req16, [loByte w, hiByte w]⟩

/-- R86: a valid frame of a type and a payload. -/
def frameOf (ty p2 p3 p4 p5 p6 p7 : Byte) : List Byte :=
  [0xAA, ty, p2, p3, p4, p5, p6, p7, sum8 [p2, p3, p4, p5, p6, p7], 0xAB]

/-- The input item of an instruction. -/
def encode : Instr → Input
  | .queryPm => encodeWord (reqWord .queryPm 0)
  | .getMode => encodeWord (reqWord .getMode 0)
  | .setMode a => encodeWord (reqWord .setMode a)
  | .getSleep => encodeWord (reqWord .getSleep 0)
  | .setSleep a => encodeWord (reqWord .setSleep a)
  | .getFirmware => encodeWord (reqWord .getFirmware 0)
  | .getPeriod => encodeWord (reqWord .getPeriod 0)
  | .setPeriod a => encodeWord (reqWord .setPeriod a)
  | .reqIllegal w => encodeWord w
  | .rxPm aLo aHi bLo bHi x6 x7 => ⟨.rx10, frameOf 0xC0 aLo aHi bLo bHi x6 x7⟩
  | .rxMode x3 mode x5 x6 x7 => ⟨.rx10, frameOf 0xC5 0x02 x3 mode x5 x6 x7⟩
  | .rxSleep x3 sleep x5 x6 x7 => ⟨.rx10, frameOf 0xC5 0x06 x3 sleep x5 x6 x7⟩
  | .rxFirmware year month day x6 x7 => ⟨.rx10, frameOf 0xC5 0x07 year month day x6 x7⟩
  | .rxPeriod x3 minutes x5 x6 x7 => ⟨.rx10, frameOf 0xC5 0x08 x3 minutes x5 x6 x7⟩
  | .rxUnknownSetting st x3 x4 x5 x6 x7 => ⟨.rx10, frameOf 0xC5 st x3 x4 x5 x6 x7⟩
  | .rxUnknownType ty st x3 x4 x5 x6 x7 => ⟨.rx10, frameOf ty st x3 x4 x5 x6 x7⟩
  | .rxInvalid F => ⟨.rx10, F⟩
  | .reset => ⟨.ev3, [0]⟩
  | .req w => ⟨.ev3, [1, loByte w, hiByte w]⟩
  | .rx F => ⟨.ev3, 2 :: BitVec.ofNat 8 F.length :: F⟩
  | .tick => ⟨.ev3, [3]⟩
  | .close => ⟨.ev3, [4]⟩
  | .rd n => ⟨.ev3, [5, n]⟩

/-! The words of spec/opcode_table.json. -/

/-- The `n` bytes of a number, the least significant first. -/
def bytesOfNat : Nat → Nat → List Byte
  | 0, _ => []
  | n + 1, w => BitVec.ofNat 8 w :: bytesOfNat n (w / 256)

/-- The operand bytes an event has beside its code: the word of REQ, the length of an empty RX, the number of RD. -/
def operandBytes (code : Nat) : Nat :=
  if code = 1 then 2 else if code = 2 then 1 else if code = 5 then 1 else 0

/-- The input item of an opcode-table word: one byte is an EV3 code with operands of zeros, two bytes are a request
word, anything longer a frame. -/
def inputOfTableWord (nbits w : Nat) : Input :=
  if nbits ≤ 8 then ⟨.ev3, BitVec.ofNat 8 w :: bytesOfNat (operandBytes (w % 256)) 0⟩
  else if nbits ≤ 16 then ⟨.req16, bytesOfNat 2 w⟩
  else ⟨.rx10, bytesOfNat ((nbits + 7) / 8) w⟩

/-- The instruction the decoder reads from an opcode-table word. -/
def decodeTableWord (nbits w : Nat) : Option Instr :=
  match decode (inputOfTableWord nbits w) with
  | .ok i => some i
  | .error _ => none

end Sys2Proof
end

