-- ==== Sys2Proof/Machine/State.lean ====
section
/-! DEFINITION. The state of the PE (spec/10_state.md) as plain data, the output records (spec/30_encoding.md R84,
R88 to R90), the named stops, and the state after reset (spec/70_reset_and_hazards.md R271). -/

namespace Sys2Proof.Machine

/-- R25: the reporting mode, `ACTIVE` 0 and `QUERY` 1. -/
inductive Mode where
  | active | query
  deriving DecidableEq, Repr

/-- R241: the code space of `last_rx`; the codes are `rxStatusCode`. -/
inductive RxStatus where
  /-- 0 `NONE`: no frame since reset. -/
  | noFrame
  | okPm | okSetting | malformed | checksumMismatch | unknownSetting | unknownFrameType | droppedClosed
  deriving DecidableEq, Repr

/-- R242: the status of a REQRESP; the codes are `reqStatusCode`. -/
inductive ReqStatus where
  | accepted | invalidArgument | connectionClosed | queueFull
  deriving DecidableEq, Repr

/-- R242: the outcome of a DONE; the codes are `outcomeCode`, and code 3 is never emitted. -/
inductive DoneOutcome where
  | success | retryExhausted | connectionClosed
  deriving DecidableEq, Repr

/-- R22 to R28: the sensor-state registers, each field a value part and a valid bit. -/
structure Sensor where
  pmA : Half
  pmB : Half
  pmV : Bool
  mode : Mode
  modeV : Bool
  sleeping : Bool
  sleepV : Bool
  fwY : Byte
  fwM : Byte
  fwD : Byte
  fwV : Bool
  period : Byte
  periodV : Bool
  deriving DecidableEq, Repr

/-- R43: every sensor-state field unset, its value part 0. -/
def Sensor.unset : Sensor where
  pmA := 0
  pmB := 0
  pmV := false
  mode := .active
  modeV := false
  sleeping := false
  sleepV := false
  fwY := 0
  fwM := 0
  fwD := 0
  fwV := false
  period := 0
  periodV := false

/-- R30: an entry of the command queue. -/
structure Entry where
  handle : Byte
  boot : Bool
  kind : Kind
  arg : Byte
  deriving DecidableEq, Repr

/-- The records of the output ports of R80, in the one total order of R70. -/
inductive Record where
  /-- R89 REQRESP. -/
  | reqresp (status : ReqStatus) (handle : Byte)
  /-- R84 TX: the 19 bytes of an outbound frame. -/
  | tx (frame : List Byte)
  /-- R88 DONE. -/
  | done (handle : Byte) (boot : Bool) (kind : Kind) (outcome : DoneOutcome) (result : Word)
  /-- R90 MEAS. -/
  | meas (pmA pmB : Half)
  /-- R90 CLOSED. -/
  | closed
  /-- R90 RXERR. -/
  | rxerr (status : RxStatus) (ty setting : Byte)
  deriving DecidableEq, Repr

/-- The state: R43's elements, the parameters, and the model's own view of the outside (INVENTORY.md, State). -/
structure State where
  /-- The parameters of R5; no event changes them (R273, log entry 1). -/
  cfg : Config
  /-- R22 to R28. -/
  sensor : Sensor
  /-- R29. -/
  closed : Bool
  /-- R30, the oldest entry first. -/
  q : List Entry
  /-- R31. -/
  cnt : Byte
  /-- R32. -/
  timerArmed : Bool
  /-- R33. -/
  nextHandle : Byte
  /-- R34. -/
  lastRx : RxStatus
  /-- R35. -/
  unkSticky : Bool
  /-- The input items still to come, in the order the PE accepts them (R69; log entry 2). -/
  inputs : List Input
  /-- The output records so far, the oldest first (R70; log entry 4). -/
  out : List Record
  /-- The word the latest RD answered (R205; log entry 5). -/
  rdAnswer : Option Word
  deriving DecidableEq, Repr

/-- Why the machine stops. All three are safe: the machine has no such step (R190, R191, R94). -/
inductive Fault where
  /-- Raised by TICK while `timer_armed` is 0: the event is not enabled and cannot occur (R190; log entry 7). Safe. -/
  | tickNotEnabled
  /-- Raised by TICK while the timer is armed and the queue is empty, where R191 gives an attempt no head; no state
  that meets R37 has it (log entry 8). Safe. -/
  | attemptOnEmptyQueue
  /-- Raised by the fetch of an input item that is no event of the PE, the event codes 6 and 7 among them (R91, R94;
  log entry 9). Safe. -/
  | notAnEvent (why : DecodeError)
  deriving DecidableEq, Repr

/-- What the model has no meaning for. -/
inductive Refusal where
  /-- Raised by `exec` for an instruction without a meaning; no arm of this model is of this kind. Safe. -/
  | notModelled (mnemonic : String)
  deriving DecidableEq, Repr

/-- R271: the state after the complete RESET event, for the parameters of `Config.standard` (ALLOWED_RETRIES is at
least 1): R43's values, the bootstrap entry queued, its first attempt made and its frame sent, the timer armed. -/
def State.reset : State where
  cfg := Config.standard
  sensor := Sensor.unset
  closed := false
  q := [⟨0, true, .queryPm, 0⟩]
  cnt := 1
  timerArmed := true
  nextHandle := 1
  lastRx := .noFrame
  unkSticky := false
  inputs := []
  out := [.tx [0xAA, 0xB4, 0x04, 0x00, 0x00, 0x00, 0x00, 0x00, 0x00, 0x00, 0x00, 0x00, 0x00, 0x00, 0x00,
    0xFF, 0xFF, 0x02, 0xAB]]
  rdAnswer := none

end Sys2Proof.Machine
end

