-- ==== Sys2Proof/Machine/Flags.lean ====
section
/-! DEFINITION. The status codes (spec/60_exceptions.md R241, R242), the valid bits: setting, clearing and testing a
sensor-state field (spec/10_state.md R22), and the result word of a kind (spec/30_encoding.md R88). -/

namespace Sys2Proof.Machine

/-- R25: the bit of a mode. -/
def modeBit : Mode → BitVec 1
  | .active => 0
  | .query => 1

/-- R241. -/
def rxStatusCode : RxStatus → BitVec 3
  | .noFrame => 0
  | .okPm => 1
  | .okSetting => 2
  | .malformed => 3
  | .checksumMismatch => 4
  | .unknownSetting => 5
  | .unknownFrameType => 6
  | .droppedClosed => 7

/-- R242, R89. -/
def reqStatusCode : ReqStatus → BitVec 2
  | .accepted => 0
  | .invalidArgument => 1
  | .connectionClosed => 2
  | .queueFull => 3

/-- R242, R88. -/
def outcomeCode : DoneOutcome → BitVec 2
  | .success => 0
  | .retryExhausted => 1
  | .connectionClosed => 2

/-- R22, R151: the two readings are set together. -/
def setPm (a b : Half) (x : Sensor) : Sensor := { x with pmA := a, pmB := b, pmV := true }

/-- R22, R153. -/
def setMode (m : Mode) (x : Sensor) : Sensor := { x with mode := m, modeV := true }

/-- R22, R154. -/
def setSleeping (b : Bool) (x : Sensor) : Sensor := { x with sleeping := b, sleepV := true }

/-- R22, R155. -/
def setFirmware (y m d : Byte) (x : Sensor) : Sensor := { x with fwY := y, fwM := m, fwD := d, fwV := true }

/-- R22, R156. -/
def setPeriod (p : Byte) (x : Sensor) : Sensor := { x with period := p, periodV := true }

/-- R186: the field a kind depends on is cleared, its valid bit and every bit of its value part (R22). -/
def clearField : Kind → Sensor → Sensor
  | .queryPm, x => { x with pmA := 0, pmB := 0, pmV := false }
  | .getMode, x | .setMode, x => { x with mode := .active, modeV := false }
  | .getSleep, x | .setSleep, x => { x with sleeping := false, sleepV := false }
  | .getFirmware, x => { x with fwY := 0, fwM := 0, fwD := 0, fwV := false }
  | .getPeriod, x | .setPeriod, x => { x with period := 0, periodV := false }

/-- R187: the valid bit of the field a kind depends on. -/
def fieldValid : Kind → Sensor → Bool
  | .queryPm, x => x.pmV
  | .getMode, x | .setMode, x => x.modeV
  | .getSleep, x | .setSleep, x => x.sleepV
  | .getFirmware, x => x.fwV
  | .getPeriod, x | .setPeriod, x => x.periodV

/-- A value placed in a 32-bit word with its lowest bit at `lo`. -/
def place {n : Nat} (lo : Nat) (v : BitVec n) : Word := v.setWidth 32 <<< lo

/-- R88: the result word of a kind, from the field as the sensor reported it. -/
def fieldResult : Kind → Sensor → Word
  | .queryPm, x => place 16 x.pmB ||| place 0 x.pmA
  | .getMode, x | .setMode, x => place 0 (modeBit x.mode)
  | .getSleep, x | .setSleep, x => place 0 (BitVec.ofBool x.sleeping)
  | .getFirmware, x => place 16 x.fwD ||| place 8 x.fwM ||| place 0 x.fwY
  | .getPeriod, x | .setPeriod, x => place 0 x.period

/-- R152: the reporting mode is known to be the continuous-stream mode. -/
def streaming (x : Sensor) : Bool := x.modeV && x.mode == .active

end Sys2Proof.Machine
end

