-- ==== Sys2Proof/Machine/HostPort.lean ====
section
/-! DEFINITION. The host register port (spec/10_state.md R40, R41): 256 numbers, 8 of them defined, read-only. -/

namespace Sys2Proof.Machine

/-- R41, register 0x00. -/
def statusWord (s : State) : Word :=
  place 0 (BitVec.ofBool s.closed) ||| place 1 (BitVec.ofBool (!s.q.isEmpty)) ||| place 2 (BitVec.ofBool s.timerArmed)
    ||| place 3 (BitVec.ofBool s.unkSticky) ||| place 4 (rxStatusCode s.lastRx) ||| place 8 s.cnt
    ||| place 16 (BitVec.ofNat 8 s.q.length) ||| place 24 s.nextHandle

/-- R41: the bit of ONUNK. -/
def onUnknownBit : OnUnknown → BitVec 1
  | .propagate => 0
  | .ignore => 1

/-- R41: the bit of CLOSEPOL. -/
def closePolicyBit : ClosePolicy → BitVec 1
  | .failPending => 0
  | .abandon => 1

/-- R41, register 0x01. -/
def configWord (s : State) : Word :=
  place 0 (onUnknownBit s.cfg.onUnknown) ||| place 1 (closePolicyBit s.cfg.closePolicy)
    ||| place 4 (kindCode s.cfg.bootKind) ||| place 8 s.cfg.allowedRetries ||| place 16 s.cfg.qdepth
    ||| place 24 s.cfg.querySettingId

/-- R41, register 0x02. -/
def pmWord (s : State) : Word := place 0 s.sensor.pmA ||| place 16 s.sensor.pmB

/-- R41, register 0x03. -/
def validWord (s : State) : Word :=
  place 0 (BitVec.ofBool s.sensor.pmV) ||| place 1 (BitVec.ofBool s.sensor.modeV)
    ||| place 2 (BitVec.ofBool s.sensor.sleepV) ||| place 3 (BitVec.ofBool s.sensor.fwV)
    ||| place 4 (BitVec.ofBool s.sensor.periodV)

/-- R41, register 0x04. -/
def modeSleepWord (s : State) : Word :=
  place 0 (modeBit s.sensor.mode) ||| place 8 (BitVec.ofBool s.sensor.sleeping)

/-- R41, register 0x05. -/
def firmwareWord (s : State) : Word :=
  place 0 s.sensor.fwY ||| place 8 s.sensor.fwM ||| place 16 s.sensor.fwD

/-- R41, register 0x06. -/
def periodWord (s : State) : Word := place 0 s.sensor.period

/-- R41, register 0x07: the head of the queue, all 0 when there is none. -/
def headWord (s : State) : Word :=
  match s.q with
  | [] => 0
  | e :: _ =>
    place 0 e.handle ||| place 8 (kindCode e.kind) ||| place 12 (BitVec.ofBool e.boot) ||| place 16 1#1

/-- R40, R41 `RegRead(n)`: 0x08 to 0xFF read 0. -/
def regRead (n : Byte) (s : State) : Word :=
  if n = 0x00 then statusWord s
  else if n = 0x01 then configWord s
  else if n = 0x02 then pmWord s
  else if n = 0x03 then validWord s
  else if n = 0x04 then modeSleepWord s
  else if n = 0x05 then firmwareWord s
  else if n = 0x06 then periodWord s
  else if n = 0x07 then headWord s
  else 0

end Sys2Proof.Machine
end

