-- ==== Sys2Proof/Machine/Ops.lean ====
section
/-! DEFINITION. The shared operations: output records, answers, the attempt of the head command (spec/42_command_queue.md
R186 to R192), a request (R181), a delivered frame (spec/41_frame_decode.md R140, R150 to R157), CLOSE (R200), RESET
(R270, R272), and the choice of the next event. The PE has no traps (R245), so there is no operation that takes an
exception and none that returns from one: an error is a status in a record or in `last_rx` (R240). -/

namespace Sys2Proof.Machine

/-- R8 `emit`: one record appended to the output order of R70. -/
def emit (r : Record) (s : State) : State := { s with out := s.out ++ [r] }

/-- R8 `respond`, R89: the synchronous answer of a REQ. -/
def respond (st : ReqStatus) (h : Byte) (s : State) : State := emit (.reqresp st h) s

/-- R33: the handle after `h`; 255 is followed by 1. -/
def succHandle (h : Byte) : Byte := if h = 255 then 1 else h + 1

/-! The retry machine, R186 to R192. -/

/-- R186 `prepare`. -/
def prepare (k : Kind) (s : State) : State := { s with sensor := clearField k s.sensor }

/-- R187 `fulfilled`. -/
def fulfilled (k : Kind) (s : State) : Bool := fieldValid k s.sensor

/-- R189 `result`. -/
def result (k : Kind) (s : State) : Word := fieldResult k s.sensor

/-- The start of R191's `attempt`: prepare at the first attempt only, then count. -/
def beginAttempt (e : Entry) (s : State) : State :=
  let s := if s.cnt = 0 then prepare e.kind s else s
  { s with cnt := s.cnt + 1 }

/-- An exit of R191: the head leaves (`rest` is what is behind it), its DONE record is emitted, the counter is 0. -/
def finish (e : Entry) (rest : List Entry) (o : DoneOutcome) (r : Word) (s : State) : State :=
  let s := { s with q := rest }
  let s := emit (.done e.handle e.boot e.kind o r) s
  { s with cnt := 0 }

/-- The last branch of R191: the command frame is sent and the timer armed. -/
def execute (e : Entry) (s : State) : State :=
  let s := emit (.tx (build s.cfg.querySettingId e.kind e.arg)) s
  { s with timerArmed := true }

/-- R191 `attempt()` and R192 `advance()` over the queue: the budget test, then the fulfilled test, then execute; an
exit goes on with the next head in the same event. With an empty queue this is `advance()`, which does nothing. -/
def attemptFrom : List Entry → State → State
  | [], s => s
  | e :: rest, s =>
    let s := beginAttempt e s
    if s.cfg.allowedRetries < s.cnt then attemptFrom rest (finish e rest .retryExhausted 0 s)
    else if fulfilled e.kind s then attemptFrom rest (finish e rest .success (result e.kind s) s)
    else execute e s

/-- R191 `attempt()` of the head of the queue. -/
def attempt (s : State) : State := attemptFrom s.q s

/-! REQ, R181. -/

/-- R181, from the handle on: the entry is queued, the handle advances, the answer is given, and into an empty queue
the first attempt is made at once. -/
def accept (k : Kind) (arg : Byte) (s : State) : State :=
  let h := s.nextHandle
  let wasIdle := s.q.isEmpty
  let s := { s with nextHandle := succHandle h, q := s.q ++ [⟨h, false, k, arg⟩] }
  let s := respond .accepted h s
  if wasIdle then attempt s else s

/-- R181 for a legal word: the closed test, then the queue bound (R182). -/
def submit (k : Kind) (arg : Byte) (s : State) : State :=
  if s.closed then respond .connectionClosed 0 s
  else if s.q.length = s.cfg.qdepth.toNat then respond .queueFull 0 s
  else accept k arg s

/-- The REQ event of a kind and an argument, the argument validated first (R182, R183). -/
def request (k : Kind) (arg : Byte) (s : State) : State :=
  if argLegal k arg then submit k arg s else respond .invalidArgument 0 s

/-- R181: the REQ event of a request word. -/
def requestWord (w : Half) (s : State) : State :=
  match requestOf w with
  | none => respond .invalidArgument 0 s
  | some (k, a) => submit k a s

/-! RX, R140 to R157. -/

/-- R140: after CLOSE a frame is dropped; otherwise `handle` says what it does. -/
def receive (handle : State → State) (s : State) : State :=
  if s.closed then { s with lastRx := .droppedClosed } else handle s

/-- R151, R152: a PM reading frame. -/
def decodePm (aLo aHi bLo bHi : Byte) (s : State) : State :=
  let a := pair aLo aHi
  let b := pair bLo bHi
  let s := { s with sensor := setPm a b s.sensor, lastRx := .okPm }
  if streaming s.sensor then emit (.meas a b) s else s

/-- R153: 0 is `ACTIVE`, every other byte `QUERY`. -/
def decodeMode (b : Byte) (s : State) : State :=
  { s with sensor := setMode (if b = 0 then .active else .query) s.sensor, lastRx := .okSetting }

/-- R154: 0 is sleeping, every other byte awake. -/
def decodeSleep (b : Byte) (s : State) : State :=
  { s with sensor := setSleeping (b == 0) s.sensor, lastRx := .okSetting }

/-- R155: the three bytes as sent, no range check. -/
def decodeFirmware (y m d : Byte) (s : State) : State :=
  { s with sensor := setFirmware y m d s.sensor, lastRx := .okSetting }

/-- R156: the byte as sent. -/
def decodePeriod (p : Byte) (s : State) : State :=
  { s with sensor := setPeriod p s.sensor, lastRx := .okSetting }

/-- R157: a valid frame the dispatcher cannot decode; no sensor-state field changes. -/
def unknown (st : RxStatus) (ty setting : Byte) (s : State) : State :=
  let s := { s with lastRx := st }
  match s.cfg.onUnknown with
  | .propagate => emit (.rxerr st ty setting) { s with unkSticky := true }
  | .ignore => s

/-- R150: a valid frame goes to the decoder its type byte and its setting id select. -/
def dispatch (F : List Byte) (s : State) : State :=
  if byteAt F 1 = 0xC0 then decodePm (byteAt F 2) (byteAt F 3) (byteAt F 4) (byteAt F 5) s
  else if byteAt F 1 = 0xC5 then
    if byteAt F 2 = 0x02 then decodeMode (byteAt F 4) s
    else if byteAt F 2 = 0x06 then decodeSleep (byteAt F 4) s
    else if byteAt F 2 = 0x07 then decodeFirmware (byteAt F 3) (byteAt F 4) (byteAt F 5) s
    else if byteAt F 2 = 0x08 then decodePeriod (byteAt F 4) s
    else unknown .unknownSetting (byteAt F 1) (byteAt F 2) s
  else unknown .unknownFrameType (byteAt F 1) (byteAt F 2) s

/-- R140: the RX event of a frame. A frame that fails the validator changes `last_rx` and nothing else (R143). -/
def receiveFrame (F : List Byte) (s : State) : State :=
  receive (fun s =>
    match validate F with
    | .malformed => { s with lastRx := .malformed }
    | .checksumMismatch => { s with lastRx := .checksumMismatch }
    | .valid => dispatch F s) s

/-! CLOSE, R200. -/

/-- R200: the DONE record of a command that is pending at CLOSE. -/
def closedRecord (e : Entry) : Record := .done e.handle e.boot e.kind .connectionClosed 0

/-- R200: the records CLOSE emits, head first, then CLOSED. -/
def closeRecords (s : State) : List Record :=
  match s.cfg.closePolicy with
  | .failPending => s.q.map closedRecord ++ [.closed]
  | .abandon => [.closed]

/-- R200. -/
def closeConnection (s : State) : State :=
  if s.closed then s
  else { s with closed := true, timerArmed := false, q := [], cnt := 0, out := s.out ++ closeRecords s }

/-! RESET, R270, R272. -/

/-- R270: step 1, every element takes its value of R43. The parameters (R273), the inputs to come and what was put
out before are no elements of the PE and stay (log entry 20). -/
def resetElements (s : State) : State :=
  { s with
    sensor := Sensor.unset
    closed := false
    q := []
    cnt := 0
    timerArmed := false
    nextHandle := 1
    lastRx := .noFrame
    unkSticky := false }

/-- R272: the bootstrap entry. -/
def bootEntry (c : Config) : Entry := ⟨0, true, c.bootKind, 0⟩

/-- R270, then R272: the bootstrap command is queued and attempted. -/
def resetAll (s : State) : State :=
  let s := resetElements s
  attempt { s with q := s.q ++ [bootEntry s.cfg] }

/-! The next event. -/

/-- What the PE takes next. -/
inductive Fetched where
  /-- An event, and the state that no longer holds its input item. -/
  | event (i : Instr) (s : State)
  /-- No input and no timer: nothing happens. -/
  | idle
  /-- An input item that is no event. -/
  | bad (why : DecodeError)
  deriving DecidableEq, Repr

/-- The oldest input item is the next event (R69; log entry 2). When none is left, an armed retry timer raises TICK
(R190, R289; log entry 3). -/
def fetch (s : State) : Fetched :=
  match s.inputs with
  | x :: rest =>
    match decode x with
    | .ok i => .event i { s with inputs := rest }
    | .error e => .bad e
  | [] => if s.timerArmed then .event .tick s else .idle

end Sys2Proof.Machine
end

