-- ==== Sys2Proof/Machine/Event.lean ====
section
/-! DEFINITION. The EV3 rows: the events with raw operands (spec/30_encoding.md R91). -/

namespace Sys2Proof.Machine

open Host (Outcome)

/-- R270 to R272 `RESET`. -/
def execReset (s : State) : Outcome State Fault Refusal := .next (resetAll s)

/-- R181 `REQ`. -/
def execReq (w : Half) (s : State) : Outcome State Fault Refusal := .next (requestWord w s)

/-- R140 `RX`. -/
def execRx (F : List Byte) (s : State) : Outcome State Fault Refusal := .next (receiveFrame F s)

/-- R190 `TICK`: enabled only while `timer_armed` is 1; the timer is disarmed, then the head is attempted. An attempt
requires a head (R191). -/
def execTick (s : State) : Outcome State Fault Refusal :=
  if s.timerArmed = false then .fault .tickNotEnabled
  else if s.q.isEmpty then .fault .attemptOnEmptyQueue
  else .next (attempt { s with timerArmed := false })

/-- R200 `CLOSE`. -/
def execClose (s : State) : Outcome State Fault Refusal := .next (closeConnection s)

/-- R205 `RD`: the word is answered, no element of the PE is written and no record is emitted (log entry 5). -/
def execRd (n : Byte) (s : State) : Outcome State Fault Refusal := .next { s with rdAnswer := some (regRead n s) }

end Sys2Proof.Machine
end

