-- ==== Sys2Proof/Machine/Receive.lean ====
section
/-! DEFINITION. The RX10 rows (spec/41_frame_decode.md R141, R151 to R157): each is the RX event of its frame. -/

namespace Sys2Proof.Machine

open Host (Outcome)

/-- R151, R152. -/
def execRxPm (aLo aHi bLo bHi : Byte) (s : State) : Outcome State Fault Refusal :=
  .next (receive (decodePm aLo aHi bLo bHi) s)

/-- R153. -/
def execRxMode (mode : Byte) (s : State) : Outcome State Fault Refusal := .next (receive (decodeMode mode) s)

/-- R154. -/
def execRxSleep (sleep : Byte) (s : State) : Outcome State Fault Refusal := .next (receive (decodeSleep sleep) s)

/-- R155. -/
def execRxFirmware (year month day : Byte) (s : State) : Outcome State Fault Refusal :=
  .next (receive (decodeFirmware year month day) s)

/-- R156. -/
def execRxPeriod (minutes : Byte) (s : State) : Outcome State Fault Refusal :=
  .next (receive (decodePeriod minutes) s)

/-- R157, a settings response (type 0xC5) with an unknown setting id. -/
def execRxUnknownSetting (setting : Byte) (s : State) : Outcome State Fault Refusal :=
  .next (receive (unknown .unknownSetting 0xC5 setting) s)

/-- R157, a frame of unknown type. -/
def execRxUnknownType (ty setting : Byte) (s : State) : Outcome State Fault Refusal :=
  .next (receive (unknown .unknownFrameType ty setting) s)

/-- R141, R143: a frame the validator discards. -/
def execRxInvalid (F : List Byte) (s : State) : Outcome State Fault Refusal := .next (receiveFrame F s)

end Sys2Proof.Machine
end

