-- ==== Sys2Proof/Machine/Request.lean ====
section
/-! DEFINITION. The REQ16 rows (spec/42_command_queue.md R210 to R217, R183): each is the REQ event of its word. -/

namespace Sys2Proof.Machine

open Host (Outcome)

/-- R210 `QUERY_PM`. -/
def execQueryPm (s : State) : Outcome State Fault Refusal := .next (request .queryPm 0 s)

/-- R211 `GET_MODE`. -/
def execGetMode (s : State) : Outcome State Fault Refusal := .next (request .getMode 0 s)

/-- R212 `SET_MODE`. -/
def execSetMode (arg : Byte) (s : State) : Outcome State Fault Refusal := .next (request .setMode arg s)

/-- R213 `GET_SLEEP`. -/
def execGetSleep (s : State) : Outcome State Fault Refusal := .next (request .getSleep 0 s)

/-- R214 `SET_SLEEP`. -/
def execSetSleep (arg : Byte) (s : State) : Outcome State Fault Refusal := .next (request .setSleep arg s)

/-- R215 `GET_FIRMWARE`. -/
def execGetFirmware (s : State) : Outcome State Fault Refusal := .next (request .getFirmware 0 s)

/-- R216 `GET_PERIOD`. -/
def execGetPeriod (s : State) : Outcome State Fault Refusal := .next (request .getPeriod 0 s)

/-- R217 `SET_PERIOD`. -/
def execSetPeriod (arg : Byte) (s : State) : Outcome State Fault Refusal := .next (request .setPeriod arg s)

/-- R92, R183: an illegal word answers `INVALID_ARGUMENT` and changes nothing else. -/
def execReqIllegal (w : Half) (s : State) : Outcome State Fault Refusal := .next (requestWord w s)

end Sys2Proof.Machine
end

