-- ==== Sys2Proof/Machine/Dispatch.lean ====
section
/-! DEFINITION. One arm per instruction, each one call of its meaning. -/

namespace Sys2Proof.Machine

def exec (i : Instr) (s : State) : Host.Outcome State Fault Refusal :=
  match i with
  -- REQ16
  | .queryPm => Sys2Proof.Machine.execQueryPm s
  | .getMode => Sys2Proof.Machine.execGetMode s
  | .setMode arg => Sys2Proof.Machine.execSetMode arg s
  | .getSleep => Sys2Proof.Machine.execGetSleep s
  | .setSleep arg => Sys2Proof.Machine.execSetSleep arg s
  | .getFirmware => Sys2Proof.Machine.execGetFirmware s
  | .getPeriod => Sys2Proof.Machine.execGetPeriod s
  | .setPeriod arg => Sys2Proof.Machine.execSetPeriod arg s
  | .reqIllegal w => Sys2Proof.Machine.execReqIllegal w s
  -- RX10
  | .rxPm aLo aHi bLo bHi _ _ => Sys2Proof.Machine.execRxPm aLo aHi bLo bHi s
  | .rxMode _ mode _ _ _ => Sys2Proof.Machine.execRxMode mode s
  | .rxSleep _ sleep _ _ _ => Sys2Proof.Machine.execRxSleep sleep s
  | .rxFirmware year month day _ _ => Sys2Proof.Machine.execRxFirmware year month day s
  | .rxPeriod _ minutes _ _ _ => Sys2Proof.Machine.execRxPeriod minutes s
  | .rxUnknownSetting setting _ _ _ _ _ => Sys2Proof.Machine.execRxUnknownSetting setting s
  | .rxUnknownType ty setting _ _ _ _ _ => Sys2Proof.Machine.execRxUnknownType ty setting s
  | .rxInvalid frame => Sys2Proof.Machine.execRxInvalid frame s
  -- EV3
  | .reset => Sys2Proof.Machine.execReset s
  | .req word => Sys2Proof.Machine.execReq word s
  | .rx frame => Sys2Proof.Machine.execRx frame s
  | .tick => Sys2Proof.Machine.execTick s
  | .close => Sys2Proof.Machine.execClose s
  | .rd regno => Sys2Proof.Machine.execRd regno s

end Sys2Proof.Machine
end

