-- ==== Sys2Proof/Machine/Step.lean ====
section
/-! DEFINITION. One step: the next event, run to completion (spec/20_memory.md R67). -/

namespace Sys2Proof.Machine

/-- The next event is taken and run; with no input and no armed timer nothing happens. -/
def step (s : State) : Host.Outcome State Fault Refusal :=
  match fetch s with
  | .event i s' => exec i s'
  | .idle => .next s
  | .bad why => .fault (.notAnEvent why)

/-- The input item of an opcode-table word put before all others, so that the next step takes it. -/
def State.withFetchWord (s : State) (nbits w : Nat) : State :=
  { s with inputs := inputOfTableWord nbits w :: s.inputs }

end Sys2Proof.Machine
end

