-- ==== Sys2Proof/Safety.lean ====
section
/-! DEFINITION. What a state between events looks like (spec/10_state.md R22, R36, R37, R33), in the terms the
statements use. -/

namespace Sys2Proof.Machine

/-- R22: an unset field reads as 0 in every bit of its value part. -/
structure Sensor.Cleared (x : Sensor) : Prop where
  pm : x.pmV = false → x.pmA = 0 ∧ x.pmB = 0
  mode : x.modeV = false → x.mode = .active
  sleep : x.sleepV = false → x.sleeping = false
  firmware : x.fwV = false → x.fwY = 0 ∧ x.fwM = 0 ∧ x.fwD = 0
  period : x.periodV = false → x.period = 0

/-- R33, R185: each handle in the queue is the one after its predecessor's, and `next_handle` is the one after the
last. The handle 0 of the bootstrap entry is followed by 1. -/
def HandleRun : List Entry → Byte → Prop
  | [], _ => True
  | [e], n => n = succHandle e.handle
  | e :: e' :: rest, n => e'.handle = succHandle e.handle ∧ HandleRun (e' :: rest) n

/-- R37: what holds between events, with what it needs to be kept by every event: the parameters are in the ranges of
R5, handles follow one another (R33), handle 0 is the bootstrap's alone (R33), and every queued argument is legal
(R181, R183). -/
structure Inv (s : State) : Prop where
  params : s.cfg.WF
  bounded : s.q.length ≤ s.cfg.qdepth.toNat
  timer : s.q ≠ [] ↔ s.timerArmed = true
  idle : s.q = [] → s.cnt = 0
  counting : s.q ≠ [] → 1 ≤ s.cnt.toNat ∧ s.cnt.toNat ≤ s.cfg.allowedRetries.toNat
  shut : s.closed = true → s.q = []
  handles : HandleRun s.q s.nextHandle
  nextHandle : s.nextHandle ≠ 0
  boot : ∀ e ∈ s.q, (e.boot = true ↔ e.handle = 0)
  args : ∀ e ∈ s.q, argLegal e.kind e.arg = true

/-- R36: the engine states between events. -/
def isIdle (s : State) : Prop := s.closed = false ∧ s.q = []

/-- R36. -/
def isAwaiting (s : State) : Prop :=
  s.q ≠ [] ∧ s.timerArmed = true ∧ 1 ≤ s.cnt.toNat ∧ s.cnt.toNat ≤ s.cfg.allowedRetries.toNat

/-- R36. -/
def isClosed (s : State) : Prop := s.closed = true ∧ s.q = [] ∧ s.timerArmed = false ∧ s.cnt = 0

/-- The TX record of a queue entry (R188). -/
def txRecord (c : Config) (e : Entry) : Record := .tx (build c.querySettingId e.kind e.arg)

/-- The DONE record of a queue entry (R88). -/
def doneRecord (e : Entry) (o : DoneOutcome) (r : Word) : Record := .done e.handle e.boot e.kind o r

/-- R186, over several commands: every field one of the kinds depends on is cleared, in order. -/
def clearFields : List Kind → Sensor → Sensor
  | [], x => x
  | k :: ks, x => clearFields ks (clearField k x)

/-- The kind and the argument of an instruction that stands for a legal request word (R210 to R217). -/
def requestOfInstr : Instr → Option (Kind × Byte)
  | .queryPm => some (.queryPm, 0)
  | .getMode => some (.getMode, 0)
  | .setMode a => some (.setMode, a)
  | .getSleep => some (.getSleep, 0)
  | .setSleep a => some (.setSleep, a)
  | .getFirmware => some (.getFirmware, 0)
  | .getPeriod => some (.getPeriod, 0)
  | .setPeriod a => some (.setPeriod, a)
  | .reqIllegal _ | .rxPm _ _ _ _ _ _ | .rxMode _ _ _ _ _ | .rxSleep _ _ _ _ _ | .rxFirmware _ _ _ _ _
  | .rxPeriod _ _ _ _ _ | .rxUnknownSetting _ _ _ _ _ _ | .rxUnknownType _ _ _ _ _ _ _ | .rxInvalid _
  | .reset | .req _ | .rx _ | .tick | .close | .rd _ => none

/-- The instructions that are RX events: the RX10 rows and the event with a raw frame. -/
def isReceive : Instr → Bool
  | .rxPm _ _ _ _ _ _ | .rxMode _ _ _ _ _ | .rxSleep _ _ _ _ _ | .rxFirmware _ _ _ _ _ | .rxPeriod _ _ _ _ _
  | .rxUnknownSetting _ _ _ _ _ _ | .rxUnknownType _ _ _ _ _ _ _ | .rxInvalid _ | .rx _ => true
  | .queryPm | .getMode | .setMode _ | .getSleep | .setSleep _ | .getFirmware | .getPeriod | .setPeriod _
  | .reqIllegal _ | .reset | .req _ | .tick | .close | .rd _ => false

/-- The RX10 row whose decoder sets the field a kind depends on (R151, R153 to R156, R187). -/
def answers : Kind → Instr → Bool
  | .queryPm, .rxPm _ _ _ _ _ _ => true
  | .getMode, .rxMode _ _ _ _ _ | .setMode, .rxMode _ _ _ _ _ => true
  | .getSleep, .rxSleep _ _ _ _ _ | .setSleep, .rxSleep _ _ _ _ _ => true
  | .getFirmware, .rxFirmware _ _ _ _ _ => true
  | .getPeriod, .rxPeriod _ _ _ _ _ | .setPeriod, .rxPeriod _ _ _ _ _ => true
  | _, _ => false

/-- Every DONE record of a list, in order: the handle and the boot bit of the command it completes. -/
def completions : List Record → List (Byte × Bool)
  | [] => []
  | .done h b _ _ _ :: rs => (h, b) :: completions rs
  | .reqresp _ _ :: rs | .tx _ :: rs | .meas _ _ :: rs | .closed :: rs | .rxerr _ _ _ :: rs => completions rs

end Sys2Proof.Machine
end

