-- ==== Sys2Proof/Certificates/Slice0/Obligations.lean ====
section
/-! DEFINITION. The statements for the provers. Most say the next state of an event as a record update of the state
before it: every element the update does not name is unchanged, so each of them is the event's frame as well. The PE
has no memory (spec/20_memory.md R60), so no statement is about memory. -/

open Sys2Proof Sys2Proof.Machine
open Host (Outcome)

/-! Encoding. -/

/-- Every instruction an input can carry is read back from its own encoding (R81 to R87, R91). -/
def Obligations.DecodeEncodeRoundTrip : Prop :=
  ∀ i : Instr, i.WF → decode (encode i) = .ok i

/-- Every input item that is an event is the encoding of the one instruction it is read as, and that instruction is
well formed. The byte layout of an item is the model's (log entry 10). -/
def Obligations.EncodeDecodeRoundTrip : Prop :=
  ∀ (x : Input) (i : Instr), decode x = .ok i → i.WF ∧ encode i = x

/-- R81, R82, R83, R91: the word of each request row, for every legal argument, and of every illegal word; the code
and the operand bytes of each event, in the model's layout of an input item (log entry 10). -/
def Obligations.OpcodeTableWordsDecode : Prop :=
  decodeTableWord 16 0x0000 = some .queryPm ∧
  decodeTableWord 16 0x0100 = some .getMode ∧
  decodeTableWord 16 0x0200 = some (.setMode 0) ∧
  decodeTableWord 16 0x0201 = some (.setMode 1) ∧
  decodeTableWord 16 0x0300 = some .getSleep ∧
  decodeTableWord 16 0x0400 = some (.setSleep 0) ∧
  decodeTableWord 16 0x0401 = some (.setSleep 1) ∧
  decodeTableWord 16 0x0500 = some .getFirmware ∧
  decodeTableWord 16 0x0600 = some .getPeriod ∧
  (∀ a : Byte, a.toNat ≤ 30 → decodeTableWord 16 (0x0700 + a.toNat) = some (.setPeriod a)) ∧
  (∀ w : Half, legal w = false → decodeTableWord 16 w.toNat = some (.reqIllegal w)) ∧
  decode ⟨.ev3, [0]⟩ = .ok .reset ∧
  (∀ w : Half, decode ⟨.ev3, [1, w.extractLsb' 0 8, w.extractLsb' 8 8]⟩ = .ok (.req w)) ∧
  (∀ F : List Byte, F.length ≤ 255 → decode ⟨.ev3, 2 :: BitVec.ofNat 8 F.length :: F⟩ = .ok (.rx F)) ∧
  decode ⟨.ev3, [3]⟩ = .ok .tick ∧
  decode ⟨.ev3, [4]⟩ = .ok .close ∧
  (∀ n : Byte, decode ⟨.ev3, [5, n]⟩ = .ok (.rd n)) ∧
  decodeTableWord 8 6 = none ∧
  decodeTableWord 8 7 = none

/-- R86, R87, R150: the row of a valid frame, byte by byte: the type in `F[1]`, the setting id in `F[2]`, and which
byte is which operand. RX of the frame is that row's event. -/
def Obligations.FrameBytesSelectTheirRow : Prop :=
  ∀ f2 f3 f4 f5 f6 f7 : Byte,
    let isRow := fun (ty id : Byte) (row : Instr) =>
      let F : List Byte := [0xAA, ty, id, f3, f4, f5, f6, f7, sum8 [id, f3, f4, f5, f6, f7], 0xAB]
      decode ⟨.rx10, F⟩ = .ok row ∧ ∀ s : State, exec (.rx F) s = exec row s
    isRow 0xC0 f2 (.rxPm f2 f3 f4 f5 f6 f7) ∧
    isRow 0xC5 0x02 (.rxMode f3 f4 f5 f6 f7) ∧
    isRow 0xC5 0x06 (.rxSleep f3 f4 f5 f6 f7) ∧
    isRow 0xC5 0x07 (.rxFirmware f3 f4 f5 f6 f7) ∧
    isRow 0xC5 0x08 (.rxPeriod f3 f4 f5 f6 f7) ∧
    (f2 ≠ 0x02 → f2 ≠ 0x06 → f2 ≠ 0x07 → f2 ≠ 0x08 → isRow 0xC5 f2 (.rxUnknownSetting f2 f3 f4 f5 f6 f7)) ∧
    ∀ ty : Byte, ty ≠ 0xC0 → ty ≠ 0xC5 → isRow ty f2 (.rxUnknownType ty f2 f3 f4 f5 f6 f7)

/-- R91, R94: an item with event code 6 or 7 is no event, and a step that meets it stops. The stop is the model's
reading of "stuck" (log entry 9). -/
def Obligations.ReservedEventCodesStop : Prop :=
  ∀ (c : Byte) (ops : List Byte) (rest : List Input) (s : State), c = 6 ∨ c = 7 →
    s.inputs = ⟨.ev3, c :: ops⟩ :: rest → step s = .fault (.notAnEvent .reservedEventCode)

/-- A step takes the oldest input item and runs the instruction it decodes to, in the state without that item. That
inputs stand in one list is the model's (log entry 2). -/
def Obligations.StepRunsDecodedEvent : Prop :=
  ∀ (s : State) (x : Input) (rest : List Input) (i : Instr), s.inputs = x :: rest → decode x = .ok i →
    step s = exec i { s with inputs := rest }

/-- The model's choice of log entry 3: with no input left, an armed timer raises TICK and an unarmed one leaves the
state as it is. -/
def Obligations.StepWithoutInput : Prop :=
  ∀ s : State, s.inputs = [] →
    (s.timerArmed = true → step s = exec .tick s) ∧ (s.timerArmed = false → step s = .next s)

/-- R183: which request words are legal. -/
def Obligations.RequestWordLegality : Prop :=
  ∀ w : Half,
    legal w = true ↔
      w.extractLsb' 12 4 = 0 ∧
      ((w.extractLsb' 8 4 = 0x2 ∧ (w.extractLsb' 0 8 = 0 ∨ w.extractLsb' 0 8 = 1)) ∨
       (w.extractLsb' 8 4 = 0x4 ∧ (w.extractLsb' 0 8 = 0 ∨ w.extractLsb' 0 8 = 1)) ∨
       (w.extractLsb' 8 4 = 0x7 ∧ (w.extractLsb' 0 8).toNat ≤ 30) ∨
       ((w.extractLsb' 8 4 = 0x0 ∨ w.extractLsb' 8 4 = 0x1 ∨ w.extractLsb' 8 4 = 0x3 ∨ w.extractLsb' 8 4 = 0x5 ∨
         w.extractLsb' 8 4 = 0x6) ∧ w.extractLsb' 0 8 = 0))

/-! The checksum unit. -/

/-- R120: `sum8` is the sum modulo 256, 0 of nothing, and does not depend on the order of the bytes. -/
def Obligations.Sum8IsTheSumModulo256 : Prop :=
  (∀ bs : List Byte, (sum8 bs).toNat = (bs.map BitVec.toNat).sum % 256) ∧
  sum8 [] = 0 ∧
  ∀ bs cs : List Byte, bs.Perm cs → sum8 bs = sum8 cs

/-- R121, R122: the fixed window is the six bytes `F[2..7]`, and the test compares it with `F[8]`. -/
def Obligations.FixedWindowChecksum : Prop :=
  ∀ f0 f1 f2 f3 f4 f5 f6 f7 f8 f9 : Byte,
    (ckIn [f0, f1, f2, f3, f4, f5, f6, f7, f8, f9]).toNat =
      (f2.toNat + f3.toNat + f4.toNat + f5.toNat + f6.toNat + f7.toNat) % 256 ∧
    (ckInOk [f0, f1, f2, f3, f4, f5, f6, f7, f8, f9] = true ↔
      f8.toNat = (f2.toNat + f3.toNat + f4.toNat + f5.toNat + f6.toNat + f7.toNat) % 256)

/-- R123: the variable window is `F[2..L-3]`, the checksum position never enters it, and below 4 bytes there is no
window. -/
def Obligations.VariableWindowChecksum : Prop :=
  ∀ F : List Byte,
    (F.length < 4 → ckVar F = .error .window) ∧
    (4 ≤ F.length →
      ckVar F = .ok (sum8 ((F.drop 2).take (F.length - 4))) ∧
      ∀ b : Byte, ckVar (F.set (F.length - 2) b) = ckVar F) ∧
    (F.length = 4 → ckVar F = .ok 0)

/-- R125: the two windows agree on a 10-byte frame. -/
def Obligations.WindowsAgreeOnTenBytes : Prop :=
  ∀ F : List Byte, F.length = 10 → ckVar F = .ok (ckIn F)

/-- R126: `ADD_CHECKSUM` writes the variable-window checksum at `F[L-2]` and no other byte, is idempotent, has no
value below 4 bytes, and every frame the builder emits carries its own checksum. -/
def Obligations.AddChecksumWritesOneByte : Prop :=
  (∀ F : List Byte, F.length < 4 → addChecksum F = .error .window) ∧
  (∀ F : List Byte, 4 ≤ F.length →
    ∃ G : List Byte, addChecksum F = .ok G ∧ G.length = F.length ∧
      (∀ n : Nat, n ≠ F.length - 2 → G[n]? = F[n]?) ∧
      ckVar F = .ok (byteAt G (F.length - 2)) ∧
      addChecksum G = .ok G) ∧
  ∀ (qsid : Byte) (k : Kind) (a : Byte), ckVar (build qsid k a) = .ok (byteAt (build qsid k a) 17)

/-- R84, R85, R124, R188: the 19 bytes of the command frame of every kind. -/
def Obligations.CommandFrames : Prop :=
  ∀ (qsid a : Byte),
    let frame := fun sid wf data : Byte =>
      ([0xAA, 0xB4, sid, wf, data, 0, 0, 0, 0, 0, 0, 0, 0, 0, 0, 0xFF, 0xFF, sid + wf + data + 0xFE, 0xAB] :
        List Byte)
    build qsid .queryPm a = frame qsid 0 0 ∧
    build qsid .getMode a = frame 0x02 0 0 ∧
    build qsid .setMode a = frame 0x02 1 a ∧
    build qsid .getSleep a = frame 0x06 0 0 ∧
    build qsid .setSleep a = frame 0x06 1 a ∧
    build qsid .getFirmware a = frame 0x07 0 0 ∧
    build qsid .getPeriod a = frame 0x08 0 0 ∧
    build qsid .setPeriod a = frame 0x08 1 a ∧
    ∀ k : Kind, (build qsid k a).length = 19 ∧ byteAt (build qsid k a) 17 = ckOut (build qsid k a) ∧
      ckOut (build qsid k a) = sum8 (((build qsid k a).drop 2).take 15) ∧
      ckVar (build qsid k a) = .ok (ckOut (build qsid k a))

/-! The validator and the decoders. -/

/-- R141, R144: which status a frame gets, and when it is valid. -/
def Obligations.ValidatorDecision : Prop :=
  ∀ F : List Byte,
    (validate F = .malformed ↔ F.length ≠ 10 ∨ F[0]? ≠ some 0xAA ∨ F[9]? ≠ some 0xAB) ∧
    (validate F = .checksumMismatch ↔
      F.length = 10 ∧ F[0]? = some 0xAA ∧ F[9]? = some 0xAB ∧ F[8]? ≠ some (sum8 ((F.drop 2).take 6))) ∧
    (validate F = .valid ↔
      F.length = 10 ∧ F[0]? = some 0xAA ∧ F[9]? = some 0xAB ∧ F[8]? = some (sum8 ((F.drop 2).take 6))) ∧
    (validateInbound F = true ↔ validate F = .valid)

/-- R140, R143: what an RX event does with a raw frame: dropped after CLOSE, discarded when it is not valid, decoded
otherwise; in every case the queue, the counter, the timer, the handles and the closed flag are as before, and no
command completes. -/
def Obligations.RxEventOutcome : Prop :=
  ∀ (F : List Byte) (s : State), ∃ t : State,
    exec (.rx F) s = .next t ∧
    (s.closed = true → t = { s with lastRx := .droppedClosed }) ∧
    (s.closed = false → validate F = .malformed → t = { s with lastRx := .malformed }) ∧
    (s.closed = false → validate F = .checksumMismatch → t = { s with lastRx := .checksumMismatch }) ∧
    (s.closed = false → validate F = .valid → t = dispatch F s) ∧
    t.q = s.q ∧ t.cnt = s.cnt ∧ t.timerArmed = s.timerArmed ∧ t.nextHandle = s.nextHandle ∧ t.closed = s.closed ∧
    t.cfg = s.cfg ∧ t.inputs = s.inputs ∧ t.rdAnswer = s.rdAnswer ∧
    ∃ l : List Record, t.out = s.out ++ l ∧ ∀ r ∈ l, (∃ a b, r = .meas a b) ∨ ∃ st ty id, r = .rxerr st ty id

/-- R150: the event of a raw frame is the event of the row the frame is of, whatever the frame. -/
def Obligations.RxRowsRunTheirFrame : Prop :=
  ∀ (F : List Byte) (i : Instr) (s : State), decode ⟨.rx10, F⟩ = .ok i → exec i s = exec (.rx F) s

/-- R151, R152: a PM frame writes both readings, low byte first, and emits MEAS exactly in the known stream mode. -/
def Obligations.PmFrameSetsReadings : Prop :=
  ∀ (aLo aHi bLo bHi x6 x7 : Byte) (s : State), s.closed = false →
    ∃ a b : Half,
      a.toNat = aLo.toNat + 256 * aHi.toNat ∧ b.toNat = bLo.toNat + 256 * bHi.toNat ∧
      exec (.rxPm aLo aHi bLo bHi x6 x7) s =
        .next { s with
          sensor := { s.sensor with pmA := a, pmB := b, pmV := true }
          lastRx := .okPm
          out := if s.sensor.modeV = true ∧ s.sensor.mode = .active then s.out ++ [.meas a b] else s.out }

/-- R153: a mode response. -/
def Obligations.ModeFrameSetsMode : Prop :=
  ∀ (x3 mode x5 x6 x7 : Byte) (s : State), s.closed = false →
    exec (.rxMode x3 mode x5 x6 x7) s =
      .next { s with
        sensor := { s.sensor with mode := if mode.toNat = 0 then .active else .query, modeV := true }
        lastRx := .okSetting }

/-- R154: a sleep response; 0 is sleeping. -/
def Obligations.SleepFrameSetsSleeping : Prop :=
  ∀ (x3 sleep x5 x6 x7 : Byte) (s : State), s.closed = false →
    exec (.rxSleep x3 sleep x5 x6 x7) s =
      .next { s with
        sensor := { s.sensor with sleeping := if sleep.toNat = 0 then true else false, sleepV := true }
        lastRx := .okSetting }

/-- R155: a firmware response; the three bytes are stored as sent. -/
def Obligations.FirmwareFrameSetsFirmware : Prop :=
  ∀ (year month day x6 x7 : Byte) (s : State), s.closed = false →
    exec (.rxFirmware year month day x6 x7) s =
      .next { s with
        sensor := { s.sensor with fwY := year, fwM := month, fwD := day, fwV := true }
        lastRx := .okSetting }

/-- R156: a working-period response; the byte is stored as sent. -/
def Obligations.PeriodFrameSetsPeriod : Prop :=
  ∀ (x3 minutes x5 x6 x7 : Byte) (s : State), s.closed = false →
    exec (.rxPeriod x3 minutes x5 x6 x7) s =
      .next { s with sensor := { s.sensor with period := minutes, periodV := true }, lastRx := .okSetting }

/-- R157: a valid frame of unknown setting or type, under both policies. -/
def Obligations.UnknownFramesAreReported : Prop :=
  (∀ (id x3 x4 x5 x6 x7 : Byte) (s : State), (Instr.rxUnknownSetting id x3 x4 x5 x6 x7).WF → s.closed = false →
    (s.cfg.onUnknown = .propagate →
      exec (.rxUnknownSetting id x3 x4 x5 x6 x7) s =
        .next { s with
          lastRx := .unknownSetting, unkSticky := true, out := s.out ++ [.rxerr .unknownSetting 0xC5 id] }) ∧
    (s.cfg.onUnknown = .ignore →
      exec (.rxUnknownSetting id x3 x4 x5 x6 x7) s = .next { s with lastRx := .unknownSetting })) ∧
  (∀ (ty f2 x3 x4 x5 x6 x7 : Byte) (s : State), (Instr.rxUnknownType ty f2 x3 x4 x5 x6 x7).WF → s.closed = false →
    (s.cfg.onUnknown = .propagate →
      exec (.rxUnknownType ty f2 x3 x4 x5 x6 x7) s =
        .next { s with
          lastRx := .unknownFrameType, unkSticky := true, out := s.out ++ [.rxerr .unknownFrameType ty f2] }) ∧
    (s.cfg.onUnknown = .ignore →
      exec (.rxUnknownType ty f2 x3 x4 x5 x6 x7) s = .next { s with lastRx := .unknownFrameType }))

/-- R143: a frame that fails the validator changes `last_rx` and nothing else. -/
def Obligations.InvalidFramesAreDiscarded : Prop :=
  ∀ (F : List Byte) (s : State), (Instr.rxInvalid F).WF → s.closed = false →
    ∃ st : RxStatus, exec (.rxInvalid F) s = .next { s with lastRx := st } ∧
      (st = .malformed ∧ validate F = .malformed ∨ st = .checksumMismatch ∧ validate F = .checksumMismatch)

/-! Requests. -/

/-- R92: an illegal word answers INVALID_ARGUMENT, queues nothing and changes no state, whatever the state. -/
def Obligations.IllegalWordsAreRefused : Prop :=
  ∀ (w : Half) (s : State), legal w = false →
    exec (.reqIllegal w) s = .next { s with out := s.out ++ [.reqresp .invalidArgument 0] } ∧
    exec (.req w) s = .next { s with out := s.out ++ [.reqresp .invalidArgument 0] }

/-- R182: the order of the checks of REQ. -/
def Obligations.RequestChecksInOrder : Prop :=
  ∀ (w : Half) (s : State), ∃ t : State, exec (.req w) s = .next t ∧
    (legal w = false → t = { s with out := s.out ++ [.reqresp .invalidArgument 0] }) ∧
    (legal w = true → s.closed = true → t = { s with out := s.out ++ [.reqresp .connectionClosed 0] }) ∧
    (legal w = true → s.closed = false → s.q.length = s.cfg.qdepth.toNat →
      t = { s with out := s.out ++ [.reqresp .queueFull 0] }) ∧
    (legal w = true → s.closed = false → s.q.length ≠ s.cfg.qdepth.toNat →
      t.nextHandle = (if s.nextHandle.toNat = 255 then 1 else s.nextHandle + 1) ∧
      ∃ l : List Record, t.out = s.out ++ .reqresp .accepted s.nextHandle :: l)

/-- R181, R182: each of the eight kinds is refused after CLOSE, and with a full queue. -/
def Obligations.RequestsRefusedClosedOrFull : Prop :=
  ∀ (i : Instr) (k : Kind) (a : Byte) (s : State), requestOfInstr i = some (k, a) → i.WF →
    (s.closed = true → exec i s = .next { s with out := s.out ++ [.reqresp .connectionClosed 0] }) ∧
    (s.closed = false → s.q.length = s.cfg.qdepth.toNat →
      exec i s = .next { s with out := s.out ++ [.reqresp .queueFull 0] })

/-- R181, R185: an accepted request behind a head in flight is queued last and answered, and nothing else happens. -/
def Obligations.RequestQueuesBehindTheHead : Prop :=
  ∀ (i : Instr) (k : Kind) (a : Byte) (s : State), requestOfInstr i = some (k, a) → i.WF →
    s.closed = false → s.q ≠ [] → s.q.length ≠ s.cfg.qdepth.toNat →
    exec i s = .next { s with
      q := s.q ++ [{ handle := s.nextHandle, boot := false, kind := k, arg := a }]
      nextHandle := if s.nextHandle.toNat = 255 then 1 else s.nextHandle + 1
      out := s.out ++ [.reqresp .accepted s.nextHandle] }

/-- R181, R191: an accepted request into an empty queue is prepared, sent and waited for in the same event. -/
def Obligations.RequestIntoEmptyQueueIsSent : Prop :=
  ∀ (i : Instr) (k : Kind) (a : Byte) (s : State), requestOfInstr i = some (k, a) → i.WF →
    s.closed = false → s.q = [] → s.cnt = 0 → 1 ≤ s.cfg.qdepth.toNat → 1 ≤ s.cfg.allowedRetries.toNat →
    exec i s = .next { s with
      sensor := clearField k s.sensor
      q := [{ handle := s.nextHandle, boot := false, kind := k, arg := a }]
      cnt := 1
      timerArmed := true
      nextHandle := if s.nextHandle.toNat = 255 then 1 else s.nextHandle + 1
      out := s.out ++ [.reqresp .accepted s.nextHandle, .tx (build s.cfg.querySettingId k a)] }

/-- R193: with a budget of zero a request into an empty queue fails in its own event, after its prepare, with no TX. -/
def Obligations.RequestWithoutBudgetFailsAtOnce : Prop :=
  ∀ (i : Instr) (k : Kind) (a : Byte) (s : State), requestOfInstr i = some (k, a) → i.WF →
    s.closed = false → s.q = [] → s.cnt = 0 → 1 ≤ s.cfg.qdepth.toNat → s.cfg.allowedRetries = 0 →
    exec i s = .next { s with
      sensor := clearField k s.sensor
      nextHandle := if s.nextHandle.toNat = 255 then 1 else s.nextHandle + 1
      out := s.out ++ [.reqresp .accepted s.nextHandle, .done s.nextHandle false k .retryExhausted 0] }

/-- R181, R183: the event of a raw request word is the event of the row the word is of. -/
def Obligations.ReqWordRunsItsRow : Prop :=
  ∀ (lo hi : Byte) (i : Instr) (s : State), decode ⟨.req16, [lo, hi]⟩ = .ok i → exec (.req (halfOf lo hi)) s = exec i s

/-! The retry machine. -/

/-- R190, R37: in a state between events TICK is enabled exactly while the timer is armed; otherwise the model stops
(log entry 7). -/
def Obligations.TickEnabledExactlyWhileArmed : Prop :=
  (∀ s : State, s.timerArmed = false → exec .tick s = .fault .tickNotEnabled) ∧
  ∀ s : State, Inv s → (s.timerArmed = true ↔ ∃ t : State, exec .tick s = .next t)

/-- R190, R191: a later attempt within the budget whose field is still unset sends the frame again and waits. -/
def Obligations.TickRetriesTheHead : Prop :=
  ∀ (e : Entry) (rest : List Entry) (s : State), s.timerArmed = true → s.q = e :: rest →
    1 ≤ s.cnt.toNat → s.cnt.toNat + 1 ≤ s.cfg.allowedRetries.toNat → fieldValid e.kind s.sensor = false →
    exec .tick s = .next { s with
      cnt := s.cnt + 1
      timerArmed := true
      out := s.out ++ [.tx (build s.cfg.querySettingId e.kind e.arg)] }

/-- R191, R192: an attempt within the budget that finds the field set completes the head with the field's value, and
the next head, if any, is prepared and sent in the same event. -/
def Obligations.TickCompletesTheHead : Prop :=
  ∀ (e : Entry) (s : State), s.timerArmed = true →
    1 ≤ s.cnt.toNat → s.cnt.toNat + 1 ≤ s.cfg.allowedRetries.toNat → fieldValid e.kind s.sensor = true →
    (s.q = [e] →
      exec .tick s = .next { s with
        q := []
        cnt := 0
        timerArmed := false
        out := s.out ++ [doneRecord e .success (fieldResult e.kind s.sensor)] }) ∧
    ∀ (e' : Entry) (rest : List Entry), s.q = e :: e' :: rest →
      exec .tick s = .next { s with
        sensor := clearField e'.kind s.sensor
        q := e' :: rest
        cnt := 1
        timerArmed := true
        out := s.out ++ [doneRecord e .success (fieldResult e.kind s.sensor), txRecord s.cfg e'] }

/-- R191, R192, R282: the attempt after the last of the budget fails the head, whether or not its field is set, and
the next head, if any, is prepared and sent in the same event. -/
def Obligations.TickExhaustsTheHead : Prop :=
  ∀ (e : Entry) (s : State), s.timerArmed = true →
    1 ≤ s.cfg.allowedRetries.toNat → s.cfg.allowedRetries.toNat ≤ s.cnt.toNat → s.cnt.toNat ≤ 254 →
    (s.q = [e] →
      exec .tick s = .next { s with
        q := []
        cnt := 0
        timerArmed := false
        out := s.out ++ [doneRecord e .retryExhausted 0] }) ∧
    ∀ (e' : Entry) (rest : List Entry), s.q = e :: e' :: rest →
      exec .tick s = .next { s with
        sensor := clearField e'.kind s.sensor
        q := e' :: rest
        cnt := 1
        timerArmed := true
        out := s.out ++ [doneRecord e .retryExhausted 0, txRecord s.cfg e'] }

/-- R193: a command whose field is never set after its prepare causes exactly N TX frames and then fails at attempt
N + 1; throughout, the sensor-state registers are as its prepare left them. Run with no input, so that every step is the
timer's TICK (log entry 3). -/
def Obligations.UnansweredCommandRun : Prop :=
  ∀ (i : Instr) (k : Kind) (a : Byte) (s : State), requestOfInstr i = some (k, a) → i.WF →
    s.closed = false → s.q = [] → s.cnt = 0 → s.timerArmed = false → s.inputs = [] → s.cfg.WF →
    let h := s.nextHandle
    let tx : Record := .tx (build s.cfg.querySettingId k a)
    ∃ s₀ : State, exec i s = .next s₀ ∧
      (∀ j : Nat, j < s.cfg.allowedRetries.toNat →
        ∃ t : State, Host.Core.run Sys2Proof.core j s₀ = .next t ∧
          t.q = [{ handle := h, boot := false, kind := k, arg := a }] ∧ t.cnt.toNat = j + 1 ∧ t.timerArmed = true ∧
          t.sensor = clearField k s.sensor ∧
          t.out = s.out ++ .reqresp .accepted h :: List.replicate (j + 1) tx) ∧
      ∃ t : State, Host.Core.run Sys2Proof.core s.cfg.allowedRetries.toNat s₀ = .next t ∧
        t.q = [] ∧ t.cnt = 0 ∧ t.timerArmed = false ∧ t.sensor = clearField k s.sensor ∧
        t.out = s.out ++ .reqresp .accepted h ::
          (List.replicate s.cfg.allowedRetries.toNat tx ++ [.done h false k .retryExhausted 0])

/-- R193, R282: a command whose field is first set after its m-th TX and before the next attempt ends at that attempt
after exactly m TX frames: it succeeds with the field's value when m is less than N, and fails when m is N although
the response arrived. The events are a list of input items (log entry 2). -/
def Obligations.AnsweredCommandRun : Prop :=
  ∀ (i r : Instr) (k : Kind) (a : Byte) (m : Nat) (s : State), requestOfInstr i = some (k, a) → i.WF →
    answers k r = true → s.closed = false → s.q = [] → s.cnt = 0 → s.cfg.WF →
    1 ≤ m → m ≤ s.cfg.allowedRetries.toNat →
    s.inputs = List.replicate (m - 1) (encode .tick) ++ [encode r, encode .tick] →
    let h := s.nextHandle
    ∃ (s₀ t : State) (mid : List Record), exec i s = .next s₀ ∧ Host.Core.run Sys2Proof.core (m + 1) s₀ = .next t ∧
      t.q = [] ∧ t.cnt = 0 ∧ t.timerArmed = false ∧ t.inputs = [] ∧ fieldValid k t.sensor = true ∧
      mid.length ≤ 1 ∧ (∀ x ∈ mid, ∃ pmA pmB, x = .meas pmA pmB) ∧
      t.out = s.out ++ .reqresp .accepted h ::
        (List.replicate m (.tx (build s.cfg.querySettingId k a)) ++ mid ++
          [if m < s.cfg.allowedRetries.toNat then .done h false k .success (fieldResult k t.sensor)
           else .done h false k .retryExhausted 0])

/-- R186, R187: what prepare clears for each kind, with everything else unchanged, and the valid bit each kind
tests. -/
def Obligations.FieldOfEachKind : Prop :=
  ∀ s : State,
    prepare .queryPm s = { s with sensor := { s.sensor with pmA := 0, pmB := 0, pmV := false } } ∧
    prepare .getMode s = { s with sensor := { s.sensor with mode := .active, modeV := false } } ∧
    prepare .setMode s = { s with sensor := { s.sensor with mode := .active, modeV := false } } ∧
    prepare .getSleep s = { s with sensor := { s.sensor with sleeping := false, sleepV := false } } ∧
    prepare .setSleep s = { s with sensor := { s.sensor with sleeping := false, sleepV := false } } ∧
    prepare .getFirmware s = { s with sensor := { s.sensor with fwY := 0, fwM := 0, fwD := 0, fwV := false } } ∧
    prepare .getPeriod s = { s with sensor := { s.sensor with period := 0, periodV := false } } ∧
    prepare .setPeriod s = { s with sensor := { s.sensor with period := 0, periodV := false } } ∧
    fulfilled .queryPm s = s.sensor.pmV ∧
    fulfilled .getMode s = s.sensor.modeV ∧
    fulfilled .setMode s = s.sensor.modeV ∧
    fulfilled .getSleep s = s.sensor.sleepV ∧
    fulfilled .setSleep s = s.sensor.sleepV ∧
    fulfilled .getFirmware s = s.sensor.fwV ∧
    fulfilled .getPeriod s = s.sensor.periodV ∧
    fulfilled .setPeriod s = s.sensor.periodV

/-- R88: the value of the result word of each kind. -/
def Obligations.ResultWordOfEachKind : Prop :=
  ∀ x : Sensor,
    (fieldResult .queryPm x).toNat = x.pmB.toNat * 2 ^ 16 + x.pmA.toNat ∧
    (fieldResult .getMode x).toNat = (if x.mode = .active then 0 else 1) ∧
    (fieldResult .setMode x).toNat = (if x.mode = .active then 0 else 1) ∧
    (fieldResult .getSleep x).toNat = (if x.sleeping = true then 1 else 0) ∧
    (fieldResult .setSleep x).toNat = (if x.sleeping = true then 1 else 0) ∧
    (fieldResult .getFirmware x).toNat = x.fwD.toNat * 2 ^ 16 + x.fwM.toNat * 2 ^ 8 + x.fwY.toNat ∧
    (fieldResult .getPeriod x).toNat = x.period.toNat ∧
    (fieldResult .setPeriod x).toNat = x.period.toNat

/-! CLOSE, RD, RESET. -/

/-- R200: the first CLOSE under both policies, and the second, which has no effect. -/
def Obligations.CloseEvent : Prop :=
  ∀ s : State,
    (s.closed = true → exec .close s = .next s) ∧
    (s.closed = false → s.cfg.closePolicy = .failPending →
      exec .close s = .next { s with
        closed := true
        timerArmed := false
        q := []
        cnt := 0
        out := s.out ++ s.q.map (fun e => doneRecord e .connectionClosed 0) ++ [.closed] }) ∧
    (s.closed = false → s.cfg.closePolicy = .abandon →
      exec .close s = .next { s with
        closed := true, timerArmed := false, q := [], cnt := 0, out := s.out ++ [.closed] })

/-- R201: what every event does after CLOSE and until RESET. -/
def Obligations.AfterClose : Prop :=
  ∀ s : State, s.closed = true →
    (∀ w : Half, legal w = true → exec (.req w) s = .next { s with out := s.out ++ [.reqresp .connectionClosed 0] }) ∧
    (Inv s → s.timerArmed = false ∧ ∀ t : State, exec .tick s ≠ .next t) ∧
    (∀ i : Instr, isReceive i = true → exec i s = .next { s with lastRx := .droppedClosed }) ∧
    (∀ n : Byte, ∃ t : State, exec (.rd n) s = .next t ∧ t.rdAnswer = some (regRead n s)) ∧
    ∀ (i : Instr) (t : State), i ≠ .reset → exec i s = .next t → t.closed = true

/-- R205, R40: RD answers the register's word and changes nothing else, and a number from 8 on reads 0. The answer is
the model's own field rdAnswer (log entry 5). -/
def Obligations.RdAnswersAndChangesNothing : Prop :=
  ∀ (n : Byte) (s : State),
    exec (.rd n) s = .next { s with rdAnswer := some (regRead n s) } ∧ (8 ≤ n.toNat → regRead n s = 0)

/-- R41: every field of the host register map, with the numbers of R241 and R82, and the bits not listed, which read
0. -/
def Obligations.HostRegisterMap : Prop :=
  ∀ s : State,
    let lastRxCode : BitVec 3 :=
      if s.lastRx = .noFrame then 0 else if s.lastRx = .okPm then 1 else if s.lastRx = .okSetting then 2
      else if s.lastRx = .malformed then 3 else if s.lastRx = .checksumMismatch then 4
      else if s.lastRx = .unknownSetting then 5 else if s.lastRx = .unknownFrameType then 6 else 7
    let code := fun (k : Kind) =>
      ((if k = .queryPm then 0x0 else if k = .getMode then 0x1 else if k = .setMode then 0x2
        else if k = .getSleep then 0x3 else if k = .setSleep then 0x4 else if k = .getFirmware then 0x5
        else if k = .getPeriod then 0x6 else 0x7) : BitVec 4)
    (let w := regRead 0x00 s
     w.extractLsb' 0 1 = BitVec.ofBool s.closed ∧ w.extractLsb' 1 1 = (if s.q = [] then 0 else 1) ∧
     w.extractLsb' 2 1 = BitVec.ofBool s.timerArmed ∧ w.extractLsb' 3 1 = BitVec.ofBool s.unkSticky ∧
     w.extractLsb' 4 3 = lastRxCode ∧ w.extractLsb' 7 1 = 0 ∧ w.extractLsb' 8 8 = s.cnt ∧
     w.extractLsb' 16 8 = BitVec.ofNat 8 s.q.length ∧ w.extractLsb' 24 8 = s.nextHandle) ∧
    (let w := regRead 0x01 s
     w.extractLsb' 0 1 = (if s.cfg.onUnknown = .propagate then 0 else 1) ∧
     w.extractLsb' 1 1 = (if s.cfg.closePolicy = .failPending then 0 else 1) ∧ w.extractLsb' 2 2 = 0 ∧
     w.extractLsb' 4 4 = code s.cfg.bootKind ∧ w.extractLsb' 8 8 = s.cfg.allowedRetries ∧
     w.extractLsb' 16 8 = s.cfg.qdepth ∧ w.extractLsb' 24 8 = s.cfg.querySettingId) ∧
    (let w := regRead 0x02 s
     w.extractLsb' 0 16 = s.sensor.pmA ∧ w.extractLsb' 16 16 = s.sensor.pmB) ∧
    (let w := regRead 0x03 s
     w.extractLsb' 0 1 = BitVec.ofBool s.sensor.pmV ∧ w.extractLsb' 1 1 = BitVec.ofBool s.sensor.modeV ∧
     w.extractLsb' 2 1 = BitVec.ofBool s.sensor.sleepV ∧ w.extractLsb' 3 1 = BitVec.ofBool s.sensor.fwV ∧
     w.extractLsb' 4 1 = BitVec.ofBool s.sensor.periodV ∧ w.extractLsb' 5 27 = 0) ∧
    (let w := regRead 0x04 s
     w.extractLsb' 0 1 = (if s.sensor.mode = .active then 0 else 1) ∧ w.extractLsb' 1 7 = 0 ∧
     w.extractLsb' 8 1 = BitVec.ofBool s.sensor.sleeping ∧ w.extractLsb' 9 23 = 0) ∧
    (let w := regRead 0x05 s
     w.extractLsb' 0 8 = s.sensor.fwY ∧ w.extractLsb' 8 8 = s.sensor.fwM ∧ w.extractLsb' 16 8 = s.sensor.fwD ∧
     w.extractLsb' 24 8 = 0) ∧
    (let w := regRead 0x06 s
     w.extractLsb' 0 8 = s.sensor.period ∧ w.extractLsb' 8 24 = 0) ∧
    (s.q = [] → regRead 0x07 s = 0) ∧
    ∀ (e : Entry) (rest : List Entry), s.q = e :: rest →
      let w := regRead 0x07 s
      w.extractLsb' 0 8 = e.handle ∧ w.extractLsb' 8 4 = code e.kind ∧ w.extractLsb' 12 1 = BitVec.ofBool e.boot ∧
      w.extractLsb' 13 3 = 0 ∧ w.extractLsb' 16 1 = 1 ∧ w.extractLsb' 17 15 = 0

/-- R270, R271, R272: the complete RESET event from any state, for every value of the parameters. Pending commands get
no DONE. What is no element of the PE stays (log entry 20). -/
def Obligations.ResetEvent : Prop :=
  ∀ s : State,
    (1 ≤ s.cfg.allowedRetries.toNat →
      ∃ t : State, exec .reset s = .next t ∧
        t = { s with
          sensor := Sensor.unset
          closed := false
          q := [{ handle := 0, boot := true, kind := s.cfg.bootKind, arg := 0 }]
          cnt := 1
          timerArmed := true
          nextHandle := 1
          lastRx := .noFrame
          unkSticky := false
          out := s.out ++ [.tx (build s.cfg.querySettingId s.cfg.bootKind 0)] } ∧
        regRead 0x00 t = 0x01010106 ∧ (s.cfg.bootKind = .queryPm → regRead 0x07 t = 0x00011000)) ∧
    (s.cfg.allowedRetries = 0 →
      exec .reset s = .next { s with
        sensor := Sensor.unset
        closed := false
        q := []
        cnt := 0
        timerArmed := false
        nextHandle := 1
        lastRx := .noFrame
        unkSticky := false
        out := s.out ++ [.done 0 true s.cfg.bootKind .retryExhausted 0] })

/-- The state after reset is what the RESET event leaves, for the model's choice of the OPEN parameters (log entries 1
and 6). -/
def Obligations.ResetStateIsWhatResetLeaves : Prop :=
  exec .reset { State.reset with out := [] } = .next State.reset

/-! Invariants and whole-machine rules. -/

/-- R37 holds at reset, for the model's parameter values (log entry 1). -/
def Obligations.ResetStateMeetsInvariant : Prop := Inv State.reset

/-- R37 holds after RESET from any state at all, for every value of the parameters in the ranges of R5. -/
def Obligations.ResetEventEstablishesInvariant : Prop :=
  ∀ s t : State, s.cfg.WF → exec .reset s = .next t → Inv t

/-- R37: every step keeps the invariant. -/
def Obligations.StepKeepsInvariant : Prop :=
  ∀ s t : State, Inv s → step s = .next t → Inv t

/-- R22: every step keeps the value parts of unset fields at 0 (log entry 13). -/
def Obligations.StepKeepsUnsetFieldsZero : Prop :=
  ∀ s t : State, s.sensor.Cleared → step s = .next t → t.sensor.Cleared

/-- R37, R185: the handles of the queued commands are pairwise distinct. -/
def Obligations.QueuedHandlesDistinct : Prop :=
  ∀ s : State, Inv s → (s.q.map Entry.handle).Nodup

/-- R36: between events the PE is in exactly one of IDLE, AWAITING and CLOSED. -/
def Obligations.ExactlyOneEngineState : Prop :=
  ∀ s : State, Inv s →
    (isIdle s ∨ isAwaiting s ∨ isClosed s) ∧
    ¬ (isIdle s ∧ isAwaiting s) ∧ ¬ (isIdle s ∧ isClosed s) ∧ ¬ (isAwaiting s ∧ isClosed s)

/-- R273: no event changes a parameter. -/
def Obligations.ParametersNeverChange : Prop :=
  ∀ (i : Instr) (s t : State), exec i s = .next t → t.cfg = s.cfg

/-- R29: only CLOSE sets the closed flag and only RESET clears it. -/
def Obligations.ClosedFlagWriters : Prop :=
  ∀ (i : Instr) (s t : State), exec i s = .next t →
    (i = .close → t.closed = true) ∧ (i = .reset → t.closed = false) ∧
    (i ≠ .close → i ≠ .reset → t.closed = s.closed)

/-- R35: the sticky flag is set by exactly the RX events that find an unknown frame under PROPAGATE, and cleared only by
RESET. -/
def Obligations.StickyFlagWriters : Prop :=
  ∀ (i : Instr) (s t : State), exec i s = .next t →
    (i = .reset → t.unkSticky = false) ∧
    (i ≠ .reset → (t.unkSticky = true ↔
      s.unkSticky = true ∨
      (isReceive i = true ∧ s.cfg.onUnknown = .propagate ∧
        (t.lastRx = .unknownSetting ∨ t.lastRx = .unknownFrameType))))

/-- R34, R241: every RX event writes one of the codes 1 to 7, RESET writes 0, and no other event writes `last_rx`. -/
def Obligations.LastRxWriters : Prop :=
  ∀ (i : Instr) (s t : State), exec i s = .next t →
    (isReceive i = true → 1 ≤ (rxStatusCode t.lastRx).toNat) ∧
    (i = .reset → rxStatusCode t.lastRx = 0) ∧
    (isReceive i = false → i ≠ .reset → t.lastRx = s.lastRx)

/-- R22, R187: a valid bit is set by RX events alone, and RX events clear none. -/
def Obligations.ValidBitWriters : Prop :=
  ∀ (i : Instr) (k : Kind) (s t : State), exec i s = .next t →
    (isReceive i = false → fieldValid k t.sensor = true → fieldValid k s.sensor = true) ∧
    (isReceive i = true → fieldValid k s.sensor = true → fieldValid k t.sensor = true)

/-- R194, R180, R70: strict FIFO. The output order is only appended to; what leaves the queue leaves from its front,
at most one entry joins at its back, and the entries that leave are completed by one DONE each, in their order, and no
other command is. CLOSE under ABANDON and RESET drop commands without a DONE and are the two exceptions. -/
def Obligations.CommandsCompleteInOrder : Prop :=
  ∀ (i : Instr) (s t : State), i ≠ .reset → (i = .close → s.cfg.closePolicy = .failPending) →
    exec i s = .next t →
    ∃ (joined : List Entry) (m : Nat) (l : List Record),
      joined.length ≤ 1 ∧
      t.out = s.out ++ l ∧
      t.q = (s.q ++ joined).drop m ∧
      completions l = ((s.q ++ joined).take m).map fun e => (e.handle, e.boot)

/-- R289: with no input and a timer that fires whenever it is armed (log entry 3), every queued command is completed,
in order, within N attempts for each of them. -/
def Obligations.EveryCommandCompletes : Prop :=
  ∀ s : State, Inv s → s.inputs = [] →
    ∃ (n : Nat) (t : State) (l : List Record),
      n ≤ s.cfg.allowedRetries.toNat * s.q.length ∧
      Host.Core.run Sys2Proof.core n s = .next t ∧
      t.q = [] ∧ t.out = s.out ++ l ∧
      completions l = s.q.map fun e => (e.handle, e.boot)

/-- R193, R282: with a budget of at most one no command succeeds, and with a budget of zero none is sent. -/
def Obligations.SmallBudgetsNeverSucceed : Prop :=
  ∀ (i : Instr) (s t : State), Inv s → s.cfg.allowedRetries.toNat ≤ 1 → exec i s = .next t →
    ∃ l : List Record, t.out = s.out ++ l ∧
      (∀ (h : Byte) (b : Bool) (k : Kind) (r : Word), .done h b k .success r ∉ l) ∧
      (s.cfg.allowedRetries = 0 → ∀ F : List Byte, .tx F ∉ l)

/-- R245: every event completes, TICK when it is enabled. -/
def Obligations.EveryEventCompletes : Prop :=
  ∀ (i : Instr) (s : State), Inv s → (i = .tick → s.timerArmed = true) → ∃ t : State, exec i s = .next t
end

