-- ==== Sys2Proof/Laws/State.lean ====
section
/-! SUPPORT. One lemma per field per update of the state, so that no proof unfolds a record update. -/

namespace Sys2Proof.Machine

@[simp] theorem emit_cfg (r : Record) (s : State) : (emit r s).cfg = s.cfg := rfl
@[simp] theorem emit_sensor (r : Record) (s : State) : (emit r s).sensor = s.sensor := rfl
@[simp] theorem emit_closed (r : Record) (s : State) : (emit r s).closed = s.closed := rfl
@[simp] theorem emit_q (r : Record) (s : State) : (emit r s).q = s.q := rfl
@[simp] theorem emit_cnt (r : Record) (s : State) : (emit r s).cnt = s.cnt := rfl
@[simp] theorem emit_timerArmed (r : Record) (s : State) : (emit r s).timerArmed = s.timerArmed := rfl
@[simp] theorem emit_nextHandle (r : Record) (s : State) : (emit r s).nextHandle = s.nextHandle := rfl
@[simp] theorem emit_lastRx (r : Record) (s : State) : (emit r s).lastRx = s.lastRx := rfl
@[simp] theorem emit_unkSticky (r : Record) (s : State) : (emit r s).unkSticky = s.unkSticky := rfl
@[simp] theorem emit_inputs (r : Record) (s : State) : (emit r s).inputs = s.inputs := rfl
@[simp] theorem emit_out (r : Record) (s : State) : (emit r s).out = s.out ++ [r] := rfl
@[simp] theorem emit_rdAnswer (r : Record) (s : State) : (emit r s).rdAnswer = s.rdAnswer := rfl

@[simp] theorem respond_cfg (st : ReqStatus) (h : Byte) (s : State) : (respond st h s).cfg = s.cfg := rfl
@[simp] theorem respond_sensor (st : ReqStatus) (h : Byte) (s : State) : (respond st h s).sensor = s.sensor := rfl
@[simp] theorem respond_closed (st : ReqStatus) (h : Byte) (s : State) : (respond st h s).closed = s.closed := rfl
@[simp] theorem respond_q (st : ReqStatus) (h : Byte) (s : State) : (respond st h s).q = s.q := rfl
@[simp] theorem respond_cnt (st : ReqStatus) (h : Byte) (s : State) : (respond st h s).cnt = s.cnt := rfl
@[simp] theorem respond_timerArmed (st : ReqStatus) (h : Byte) (s : State) : (respond st h s).timerArmed = s.timerArmed := rfl
@[simp] theorem respond_nextHandle (st : ReqStatus) (h : Byte) (s : State) : (respond st h s).nextHandle = s.nextHandle := rfl
@[simp] theorem respond_lastRx (st : ReqStatus) (h : Byte) (s : State) : (respond st h s).lastRx = s.lastRx := rfl
@[simp] theorem respond_unkSticky (st : ReqStatus) (h : Byte) (s : State) : (respond st h s).unkSticky = s.unkSticky := rfl
@[simp] theorem respond_inputs (st : ReqStatus) (h : Byte) (s : State) : (respond st h s).inputs = s.inputs := rfl
@[simp] theorem respond_out (st : ReqStatus) (h : Byte) (s : State) : (respond st h s).out = s.out ++ [.reqresp st h] := rfl
@[simp] theorem respond_rdAnswer (st : ReqStatus) (h : Byte) (s : State) : (respond st h s).rdAnswer = s.rdAnswer := rfl

@[simp] theorem prepare_cfg (k : Kind) (s : State) : (prepare k s).cfg = s.cfg := rfl
@[simp] theorem prepare_sensor (k : Kind) (s : State) : (prepare k s).sensor = clearField k s.sensor := rfl
@[simp] theorem prepare_closed (k : Kind) (s : State) : (prepare k s).closed = s.closed := rfl
@[simp] theorem prepare_q (k : Kind) (s : State) : (prepare k s).q = s.q := rfl
@[simp] theorem prepare_cnt (k : Kind) (s : State) : (prepare k s).cnt = s.cnt := rfl
@[simp] theorem prepare_timerArmed (k : Kind) (s : State) : (prepare k s).timerArmed = s.timerArmed := rfl
@[simp] theorem prepare_nextHandle (k : Kind) (s : State) : (prepare k s).nextHandle = s.nextHandle := rfl
@[simp] theorem prepare_lastRx (k : Kind) (s : State) : (prepare k s).lastRx = s.lastRx := rfl
@[simp] theorem prepare_unkSticky (k : Kind) (s : State) : (prepare k s).unkSticky = s.unkSticky := rfl
@[simp] theorem prepare_inputs (k : Kind) (s : State) : (prepare k s).inputs = s.inputs := rfl
@[simp] theorem prepare_out (k : Kind) (s : State) : (prepare k s).out = s.out := rfl
@[simp] theorem prepare_rdAnswer (k : Kind) (s : State) : (prepare k s).rdAnswer = s.rdAnswer := rfl

@[simp] theorem finish_cfg (e : Entry) (rest : List Entry) (o : DoneOutcome) (r : Word) (s : State) : (finish e rest o r s).cfg = s.cfg := rfl
@[simp] theorem finish_sensor (e : Entry) (rest : List Entry) (o : DoneOutcome) (r : Word) (s : State) : (finish e rest o r s).sensor = s.sensor := rfl
@[simp] theorem finish_closed (e : Entry) (rest : List Entry) (o : DoneOutcome) (r : Word) (s : State) : (finish e rest o r s).closed = s.closed := rfl
@[simp] theorem finish_q (e : Entry) (rest : List Entry) (o : DoneOutcome) (r : Word) (s : State) : (finish e rest o r s).q = rest := rfl
@[simp] theorem finish_cnt (e : Entry) (rest : List Entry) (o : DoneOutcome) (r : Word) (s : State) : (finish e rest o r s).cnt = 0 := rfl
@[simp] theorem finish_timerArmed (e : Entry) (rest : List Entry) (o : DoneOutcome) (r : Word) (s : State) : (finish e rest o r s).timerArmed = s.timerArmed := rfl
@[simp] theorem finish_nextHandle (e : Entry) (rest : List Entry) (o : DoneOutcome) (r : Word) (s : State) : (finish e rest o r s).nextHandle = s.nextHandle := rfl
@[simp] theorem finish_lastRx (e : Entry) (rest : List Entry) (o : DoneOutcome) (r : Word) (s : State) : (finish e rest o r s).lastRx = s.lastRx := rfl
@[simp] theorem finish_unkSticky (e : Entry) (rest : List Entry) (o : DoneOutcome) (r : Word) (s : State) : (finish e rest o r s).unkSticky = s.unkSticky := rfl
@[simp] theorem finish_inputs (e : Entry) (rest : List Entry) (o : DoneOutcome) (r : Word) (s : State) : (finish e rest o r s).inputs = s.inputs := rfl
@[simp] theorem finish_out (e : Entry) (rest : List Entry) (o : DoneOutcome) (r : Word) (s : State) : (finish e rest o r s).out = s.out ++ [.done e.handle e.boot e.kind o r] := rfl
@[simp] theorem finish_rdAnswer (e : Entry) (rest : List Entry) (o : DoneOutcome) (r : Word) (s : State) : (finish e rest o r s).rdAnswer = s.rdAnswer := rfl

@[simp] theorem execute_cfg (e : Entry) (s : State) : (execute e s).cfg = s.cfg := rfl
@[simp] theorem execute_sensor (e : Entry) (s : State) : (execute e s).sensor = s.sensor := rfl
@[simp] theorem execute_closed (e : Entry) (s : State) : (execute e s).closed = s.closed := rfl
@[simp] theorem execute_q (e : Entry) (s : State) : (execute e s).q = s.q := rfl
@[simp] theorem execute_cnt (e : Entry) (s : State) : (execute e s).cnt = s.cnt := rfl
@[simp] theorem execute_timerArmed (e : Entry) (s : State) : (execute e s).timerArmed = true := rfl
@[simp] theorem execute_nextHandle (e : Entry) (s : State) : (execute e s).nextHandle = s.nextHandle := rfl
@[simp] theorem execute_lastRx (e : Entry) (s : State) : (execute e s).lastRx = s.lastRx := rfl
@[simp] theorem execute_unkSticky (e : Entry) (s : State) : (execute e s).unkSticky = s.unkSticky := rfl
@[simp] theorem execute_inputs (e : Entry) (s : State) : (execute e s).inputs = s.inputs := rfl
@[simp] theorem execute_out (e : Entry) (s : State) : (execute e s).out = s.out ++ [.tx (build s.cfg.querySettingId e.kind e.arg)] := rfl
@[simp] theorem execute_rdAnswer (e : Entry) (s : State) : (execute e s).rdAnswer = s.rdAnswer := rfl

@[simp] theorem resetElements_cfg (s : State) : (resetElements s).cfg = s.cfg := rfl
@[simp] theorem resetElements_sensor (s : State) : (resetElements s).sensor = Sensor.unset := rfl
@[simp] theorem resetElements_closed (s : State) : (resetElements s).closed = false := rfl
@[simp] theorem resetElements_q (s : State) : (resetElements s).q = [] := rfl
@[simp] theorem resetElements_cnt (s : State) : (resetElements s).cnt = 0 := rfl
@[simp] theorem resetElements_timerArmed (s : State) : (resetElements s).timerArmed = false := rfl
@[simp] theorem resetElements_nextHandle (s : State) : (resetElements s).nextHandle = 1 := rfl
@[simp] theorem resetElements_lastRx (s : State) : (resetElements s).lastRx = .noFrame := rfl
@[simp] theorem resetElements_unkSticky (s : State) : (resetElements s).unkSticky = false := rfl
@[simp] theorem resetElements_inputs (s : State) : (resetElements s).inputs = s.inputs := rfl
@[simp] theorem resetElements_out (s : State) : (resetElements s).out = s.out := rfl
@[simp] theorem resetElements_rdAnswer (s : State) : (resetElements s).rdAnswer = s.rdAnswer := rfl

@[simp] theorem beginAttempt_cfg (e : Entry) (s : State) : (beginAttempt e s).cfg = s.cfg := by
  unfold beginAttempt; split <;> rfl
theorem beginAttempt_sensor (e : Entry) (s : State) :
    (beginAttempt e s).sensor = if s.cnt = 0 then clearField e.kind s.sensor else s.sensor := by
  unfold beginAttempt; split <;> rfl
@[simp] theorem beginAttempt_closed (e : Entry) (s : State) : (beginAttempt e s).closed = s.closed := by
  unfold beginAttempt; split <;> rfl
@[simp] theorem beginAttempt_q (e : Entry) (s : State) : (beginAttempt e s).q = s.q := by
  unfold beginAttempt; split <;> rfl
@[simp] theorem beginAttempt_cnt (e : Entry) (s : State) : (beginAttempt e s).cnt = s.cnt + 1 := by
  unfold beginAttempt; split <;> rfl
@[simp] theorem beginAttempt_timerArmed (e : Entry) (s : State) : (beginAttempt e s).timerArmed = s.timerArmed := by
  unfold beginAttempt; split <;> rfl
@[simp] theorem beginAttempt_nextHandle (e : Entry) (s : State) : (beginAttempt e s).nextHandle = s.nextHandle := by
  unfold beginAttempt; split <;> rfl
@[simp] theorem beginAttempt_lastRx (e : Entry) (s : State) : (beginAttempt e s).lastRx = s.lastRx := by
  unfold beginAttempt; split <;> rfl
@[simp] theorem beginAttempt_unkSticky (e : Entry) (s : State) : (beginAttempt e s).unkSticky = s.unkSticky := by
  unfold beginAttempt; split <;> rfl
@[simp] theorem beginAttempt_inputs (e : Entry) (s : State) : (beginAttempt e s).inputs = s.inputs := by
  unfold beginAttempt; split <;> rfl
@[simp] theorem beginAttempt_out (e : Entry) (s : State) : (beginAttempt e s).out = s.out := by
  unfold beginAttempt; split <;> rfl
@[simp] theorem beginAttempt_rdAnswer (e : Entry) (s : State) : (beginAttempt e s).rdAnswer = s.rdAnswer := by
  unfold beginAttempt; split <;> rfl

end Sys2Proof.Machine
end

