-- ==== Sys2Proof/Laws/Sensor.lean ====
section
/-! SUPPORT. The sensor-state fields: what setting and clearing them does to their valid bits (spec/10_state.md R22,
spec/42_command_queue.md R186, R187). -/

namespace Sys2Proof.Machine

@[simp] theorem fieldValid_clearField (k : Kind) (x : Sensor) : fieldValid k (clearField k x) = false := by
  cases k <;> rfl

@[simp] theorem clearField_unset (k : Kind) : clearField k Sensor.unset = Sensor.unset := by
  cases k <;> rfl

/-- Clearing one field sets no valid bit. -/
theorem fieldValid_of_clearField {k j : Kind} {x : Sensor} (h : fieldValid j (clearField k x) = true) :
    fieldValid j x = true := by
  cases k <;> cases j <;> first | exact h | cases h

theorem Sensor.unset_cleared : Sensor.unset.Cleared := by
  constructor <;> intro _ <;> simp [Sensor.unset]

theorem clearField_cleared (k : Kind) {x : Sensor} (h : x.Cleared) : (clearField k x).Cleared := by
  obtain ⟨hp, hm, hs, hf, hd⟩ := h
  cases k <;> constructor <;> first | assumption | simp [clearField]

theorem setPm_cleared (a b : Half) {x : Sensor} (h : x.Cleared) : (setPm a b x).Cleared :=
  ⟨by simp [setPm], h.mode, h.sleep, h.firmware, h.period⟩

theorem setMode_cleared (m : Mode) {x : Sensor} (h : x.Cleared) : (setMode m x).Cleared :=
  ⟨h.pm, by simp [setMode], h.sleep, h.firmware, h.period⟩

theorem setSleeping_cleared (b : Bool) {x : Sensor} (h : x.Cleared) : (setSleeping b x).Cleared :=
  ⟨h.pm, h.mode, by simp [setSleeping], h.firmware, h.period⟩

theorem setFirmware_cleared (y m d : Byte) {x : Sensor} (h : x.Cleared) : (setFirmware y m d x).Cleared :=
  ⟨h.pm, h.mode, h.sleep, by simp [setFirmware], h.period⟩

theorem setPeriod_cleared (p : Byte) {x : Sensor} (h : x.Cleared) : (setPeriod p x).Cleared :=
  ⟨h.pm, h.mode, h.sleep, h.firmware, by simp [setPeriod]⟩

end Sys2Proof.Machine
end

