-- ==== Sys2Proof/Laws/Attempt.lean ====
section
/-! SUPPORT. The retry machine (spec/42_command_queue.md R191, R192): what one attempt and everything it leads to in the
same event can do. -/

namespace Sys2Proof.Machine

/-! What an attempt leaves alone. -/

@[simp] theorem attemptFrom_cfg (q : List Entry) (s : State) : (attemptFrom q s).cfg = s.cfg := by
  induction q generalizing s with
  | nil => rfl
  | cons e rest ih => simp only [attemptFrom]; split <;> [skip; split] <;> simp [ih]

@[simp] theorem attemptFrom_closed (q : List Entry) (s : State) : (attemptFrom q s).closed = s.closed := by
  induction q generalizing s with
  | nil => rfl
  | cons e rest ih => simp only [attemptFrom]; split <;> [skip; split] <;> simp [ih]

@[simp] theorem attemptFrom_nextHandle (q : List Entry) (s : State) :
    (attemptFrom q s).nextHandle = s.nextHandle := by
  induction q generalizing s with
  | nil => rfl
  | cons e rest ih => simp only [attemptFrom]; split <;> [skip; split] <;> simp [ih]

@[simp] theorem attemptFrom_lastRx (q : List Entry) (s : State) : (attemptFrom q s).lastRx = s.lastRx := by
  induction q generalizing s with
  | nil => rfl
  | cons e rest ih => simp only [attemptFrom]; split <;> [skip; split] <;> simp [ih]

@[simp] theorem attemptFrom_unkSticky (q : List Entry) (s : State) : (attemptFrom q s).unkSticky = s.unkSticky := by
  induction q generalizing s with
  | nil => rfl
  | cons e rest ih => simp only [attemptFrom]; split <;> [skip; split] <;> simp [ih]

@[simp] theorem attemptFrom_inputs (q : List Entry) (s : State) : (attemptFrom q s).inputs = s.inputs := by
  induction q generalizing s with
  | nil => rfl
  | cons e rest ih => simp only [attemptFrom]; split <;> [skip; split] <;> simp [ih]

@[simp] theorem attemptFrom_rdAnswer (q : List Entry) (s : State) : (attemptFrom q s).rdAnswer = s.rdAnswer := by
  induction q generalizing s with
  | nil => rfl
  | cons e rest ih => simp only [attemptFrom]; split <;> [skip; split] <;> simp [ih]

/-! The three branches of R191, each said once. -/

/-- The budget exit. -/
theorem attemptFrom_exhausted {e : Entry} {rest : List Entry} {s : State} (h : s.cfg.allowedRetries < s.cnt + 1) :
    attemptFrom (e :: rest) s = attemptFrom rest (finish e rest .retryExhausted 0 (beginAttempt e s)) := by
  simp only [attemptFrom, beginAttempt_cfg, beginAttempt_cnt, if_pos h]

/-- The fulfilled exit. -/
theorem attemptFrom_success {e : Entry} {rest : List Entry} {s : State} (h : ¬ s.cfg.allowedRetries < s.cnt + 1)
    (hf : fulfilled e.kind (beginAttempt e s) = true) :
    attemptFrom (e :: rest) s =
      attemptFrom rest (finish e rest .success (result e.kind (beginAttempt e s)) (beginAttempt e s)) := by
  simp only [attemptFrom, beginAttempt_cfg, beginAttempt_cnt, if_neg h, hf]; simp

/-- Execute and wait. -/
theorem attemptFrom_execute {e : Entry} {rest : List Entry} {s : State} (h : ¬ s.cfg.allowedRetries < s.cnt + 1)
    (hf : fulfilled e.kind (beginAttempt e s) = false) :
    attemptFrom (e :: rest) s = execute e (beginAttempt e s) := by
  simp only [attemptFrom, beginAttempt_cfg, beginAttempt_cnt, if_neg h, hf]; simp

/-- R193: the first attempt prepares, so it is never fulfilled. -/
theorem fulfilled_beginAttempt_first {e : Entry} {s : State} (h : s.cnt = 0) :
    fulfilled e.kind (beginAttempt e s) = false := by
  simp [fulfilled, beginAttempt_sensor, h]

theorem fulfilled_beginAttempt_later {e : Entry} {s : State} (h : s.cnt ≠ 0) :
    fulfilled e.kind (beginAttempt e s) = fieldValid e.kind s.sensor := by
  rw [fulfilled, beginAttempt_sensor, if_neg h]

/-- The first attempt of a head with a budget of at least one: the field is cleared, the frame is sent, the timer is
armed. -/
theorem attemptFrom_first {e : Entry} {rest : List Entry} {s : State} (h0 : s.cnt = 0)
    (hN : 1 ≤ s.cfg.allowedRetries.toNat) :
    attemptFrom (e :: rest) s =
      { s with
        sensor := clearField e.kind s.sensor
        cnt := 1
        timerArmed := true
        out := s.out ++ [txRecord s.cfg e] } := by
  have hb : ¬ s.cfg.allowedRetries < s.cnt + 1 := by rw [h0]; bv_omega
  rw [attemptFrom_execute hb (fulfilled_beginAttempt_first h0)]
  simp [execute, beginAttempt, emit, prepare, txRecord, h0]

/-- A later attempt does not prepare. -/
theorem beginAttempt_later {e : Entry} {s : State} (h : s.cnt ≠ 0) : beginAttempt e s = { s with cnt := s.cnt + 1 } := by
  rw [beginAttempt, if_neg h]

/-- A later attempt within the budget whose field is unset: the frame is sent again, the timer is armed. -/
theorem attemptFrom_later_execute {e : Entry} {rest : List Entry} {s : State} (hc : s.cnt ≠ 0)
    (hb : ¬ s.cfg.allowedRetries < s.cnt + 1) (hf : fieldValid e.kind s.sensor = false) :
    attemptFrom (e :: rest) s =
      { s with cnt := s.cnt + 1, timerArmed := true, out := s.out ++ [txRecord s.cfg e] } := by
  rw [attemptFrom_execute hb (by rw [fulfilled_beginAttempt_later hc]; exact hf), beginAttempt_later hc]
  rfl

/-- A later attempt within the budget whose field is set: the head is done, the next one is attempted. -/
theorem attemptFrom_later_success {e : Entry} {rest : List Entry} {s : State} (hc : s.cnt ≠ 0)
    (hb : ¬ s.cfg.allowedRetries < s.cnt + 1) (hf : fieldValid e.kind s.sensor = true) :
    attemptFrom (e :: rest) s = attemptFrom rest
      { s with q := rest, cnt := 0, out := s.out ++ [doneRecord e .success (fieldResult e.kind s.sensor)] } := by
  rw [attemptFrom_success hb (by rw [fulfilled_beginAttempt_later hc]; exact hf), beginAttempt_later hc]
  rfl

/-- A later attempt beyond the budget: the head has failed, the next one is attempted. -/
theorem attemptFrom_later_exhausted {e : Entry} {rest : List Entry} {s : State} (hc : s.cnt ≠ 0)
    (hb : s.cfg.allowedRetries < s.cnt + 1) :
    attemptFrom (e :: rest) s = attemptFrom rest
      { s with q := rest, cnt := 0, out := s.out ++ [doneRecord e .retryExhausted 0] } := by
  rw [attemptFrom_exhausted hb, beginAttempt_later hc]
  rfl

/-- With a budget of zero every command fails at its first attempt, after its prepare (R193). -/
theorem attemptFrom_noBudget (q : List Entry) {s : State} (h0 : s.cnt = 0) (hN : s.cfg.allowedRetries = 0)
    (hq : s.q = q) :
    attemptFrom q s =
      { s with
        sensor := clearFields (q.map Entry.kind) s.sensor
        q := []
        out := s.out ++ q.map fun e => doneRecord e .retryExhausted 0 } := by
  induction q generalizing s with
  | nil => cases s; cases hq; simp [attemptFrom, clearFields]
  | cons e rest ih =>
    have hb : s.cfg.allowedRetries < s.cnt + 1 := by rw [h0, hN]; decide
    rw [attemptFrom_exhausted hb, ih (by simp) (by simpa using hN) (by simp)]
    simp [beginAttempt, prepare, finish, emit, clearFields, doneRecord, h0]

/-! Output records and the queue. -/

@[simp] theorem completions_append (l l' : List Record) : completions (l ++ l') = completions l ++ completions l' := by
  induction l with
  | nil => rfl
  | cons r l ih => cases r <;> simp [completions, ih]

/-- R194: an attempt and what it leads to in the same event takes entries from the front of the queue only, with one
DONE record for each, in their order, and appends to the output. -/
theorem attemptFrom_fifo (q : List Entry) (s : State) (hq : s.q = q) :
    ∃ (m : Nat) (l : List Record),
      (attemptFrom q s).q = q.drop m ∧ (attemptFrom q s).out = s.out ++ l ∧
      completions l = (q.take m).map fun e => (e.handle, e.boot) := by
  induction q generalizing s with
  | nil => exact ⟨0, [], by simpa [attemptFrom] using hq, by simp [attemptFrom], rfl⟩
  | cons e rest ih =>
    have exit (o : DoneOutcome) (r : Word) : ∃ (m : Nat) (l : List Record),
        (attemptFrom rest (finish e rest o r (beginAttempt e s))).q = (e :: rest).drop m ∧
        (attemptFrom rest (finish e rest o r (beginAttempt e s))).out = s.out ++ l ∧
        completions l = ((e :: rest).take m).map fun e => (e.handle, e.boot) := by
      obtain ⟨m, l, h1, h2, h3⟩ := ih (finish e rest o r (beginAttempt e s)) (by simp)
      exact ⟨m + 1, .done e.handle e.boot e.kind o r :: l, by simpa using h1, by simp [h2],
        by simp [completions, h3]⟩
    simp only [attemptFrom]
    split
    · exact exit _ _
    · split
      · exact exit _ _
      · exact ⟨0, [.tx (build s.cfg.querySettingId e.kind e.arg)], by simp [hq], by simp, rfl⟩

end Sys2Proof.Machine
end

