-- ==== Sys2Proof/Laws/Checksum.lean ====
section
/-! SUPPORT. The checksum unit and the frames (spec/40_checksum.md, spec/42_command_queue.md R188): `sum8` as a number,
the variable window without its checksum position, the built frame, the shape of a 10-byte frame. -/

namespace Sys2Proof.Machine

/-- R120. -/
theorem sum8_toNat (bs : List Byte) : (sum8 bs).toNat = (bs.map BitVec.toNat).sum % 256 := by
  induction bs with
  | nil => rfl
  | cons b bs ih => simp [sum8, ih]

theorem ckVar_of_length {F : List Byte} (h : 4 ≤ F.length) : ckVar F = .ok (sum8 (slice F 2 (F.length - 3))) := by
  simp [ckVar, Nat.not_lt.2 h]

theorem addChecksum_of_length {F : List Byte} (h : 4 ≤ F.length) :
    addChecksum F = .ok (F.set (F.length - 2) (sum8 (slice F 2 (F.length - 3)))) := by
  simp [addChecksum, ckVar_of_length h]

/-- R123: the checksum position never enters its own sum. -/
theorem slice_set_checksum (F : List Byte) (b : Byte) (h : 4 ≤ F.length) :
    slice (F.set (F.length - 2) b) 2 (F.length - 3) = slice F 2 (F.length - 3) := by
  apply List.ext_getElem?
  intro n
  simp only [slice, List.getElem?_take, List.getElem?_drop]
  split
  · rw [List.getElem?_set_ne (by omega)]
  · rfl

/-- The 19 bytes `build` gives (R84, R124). -/
theorem build_eq (qsid : Byte) (k : Kind) (a : Byte) :
    build qsid k a =
      [0xAA, 0xB4, sid qsid k, writeFlag k, dataByte k a, 0, 0, 0, 0, 0, 0, 0, 0, 0, 0, 0xFF, 0xFF,
        sid qsid k + writeFlag k + dataByte k a + 0xFE, 0xAB] := by
  have h : sum8 (slice (layout qsid k a) 2 ((layout qsid k a).length - 3)) =
      sid qsid k + writeFlag k + dataByte k a + 0xFE := by
    simp [layout, slice, sum8, BitVec.add_assoc]
  rw [build, addChecksum_of_length (by simp [layout]), h]
  rfl

/-- A 10-byte frame has ten bytes. -/
theorem exists_bytes_of_length_ten {F : List Byte} (h : F.length = 10) :
    ∃ f0 f1 f2 f3 f4 f5 f6 f7 f8 f9, F = [f0, f1, f2, f3, f4, f5, f6, f7, f8, f9] := by
  match F, h with
  | [f0, f1, f2, f3, f4, f5, f6, f7, f8, f9], _ => exact ⟨f0, f1, f2, f3, f4, f5, f6, f7, f8, f9, rfl⟩

/-- R141 for ten bytes. -/
theorem validateInbound_ten (f0 f1 f2 f3 f4 f5 f6 f7 f8 f9 : Byte) :
    validateInbound [f0, f1, f2, f3, f4, f5, f6, f7, f8, f9] = true ↔
      f0 = 0xAA ∧ f9 = 0xAB ∧ f8 = sum8 [f2, f3, f4, f5, f6, f7] := by
  simp only [validateInbound, validate, byteAt, ckInOk, ckIn, slice]
  by_cases h0 : f0 = 0xAA <;> by_cases h9 : f9 = 0xAB <;>
    by_cases h8 : f8 = sum8 [f2, f3, f4, f5, f6, f7] <;> simp_all

theorem validateInbound_length {F : List Byte} (h : validateInbound F = true) : F.length = 10 := by
  by_contra hn
  simp [validateInbound, validate, hn] at h

end Sys2Proof.Machine
end

