-- ==== Sys2Proof/Laws/Decode.lean ====
section
/-! SUPPORT. Request words and frames through the decoder (spec/30_encoding.md R81 to R87): the fields of a word, the
row of a word and of a frame. -/

namespace Sys2Proof.Machine

theorem halfOf_toNat (lo hi : Byte) : (halfOf lo hi).toNat = hi.toNat * 256 + lo.toNat := by
  have h : (halfOf lo hi).toNat = hi.toNat <<< 8 ||| lo.toNat := BitVec.toNat_append hi lo
  rw [h, ← Nat.shiftLeft_add_eq_or_of_lt lo.isLt]
  omega

theorem loByte_toNat (w : Half) : (loByte w).toNat = w.toNat % 256 := by
  simp [loByte, BitVec.extractLsb'_toNat]

theorem hiByte_toNat (w : Half) : (hiByte w).toNat = w.toNat / 256 := by
  have h := w.isLt
  simp only [hiByte, BitVec.extractLsb'_toNat, Nat.shiftRight_eq_div_pow]
  omega

@[simp] theorem halfOf_bytes (w : Half) : halfOf (loByte w) (hiByte w) = w := by
  apply BitVec.eq_of_toNat_eq
  rw [halfOf_toNat, loByte_toNat, hiByte_toNat]
  omega

@[simp] theorem loByte_halfOf (lo hi : Byte) : loByte (halfOf lo hi) = lo := by
  apply BitVec.eq_of_toNat_eq
  have h := lo.isLt
  rw [loByte_toNat, halfOf_toNat]
  omega

@[simp] theorem hiByte_halfOf (lo hi : Byte) : hiByte (halfOf lo hi) = hi := by
  apply BitVec.eq_of_toNat_eq
  have h := lo.isLt
  rw [hiByte_toNat, halfOf_toNat]
  omega

theorem rsvField_toNat (w : Half) : (rsvField w).toNat = w.toNat / 4096 := by
  have h := w.isLt
  simp only [rsvField, BitVec.extractLsb'_toNat, Nat.shiftRight_eq_div_pow]
  omega

theorem kindField_toNat (w : Half) : (kindField w).toNat = w.toNat / 256 % 16 := by
  simp [kindField, BitVec.extractLsb'_toNat, Nat.shiftRight_eq_div_pow]

theorem argField_toNat (w : Half) : (argField w).toNat = w.toNat % 256 := by
  simp [argField, BitVec.extractLsb'_toNat]

theorem reqWord_toNat (k : Kind) (a : Byte) : (reqWord k a).toNat = (kindCode k).toNat * 256 + a.toNat := by
  have h : (reqWord k a).toNat = (0#4 ++ kindCode k).toNat <<< 8 ||| a.toNat := BitVec.toNat_append _ a
  rw [h, ← Nat.shiftLeft_add_eq_or_of_lt a.isLt]
  cases k <;> simp [kindCode]

@[simp] theorem rsvField_reqWord (k : Kind) (a : Byte) : rsvField (reqWord k a) = 0 := by
  apply BitVec.eq_of_toNat_eq
  have h := a.isLt
  have hk := (kindCode k).isLt
  rw [rsvField_toNat, reqWord_toNat]
  simp
  omega

@[simp] theorem kindField_reqWord (k : Kind) (a : Byte) : kindField (reqWord k a) = kindCode k := by
  apply BitVec.eq_of_toNat_eq
  have h := a.isLt
  have hk := (kindCode k).isLt
  rw [kindField_toNat, reqWord_toNat]
  omega

@[simp] theorem argField_reqWord (k : Kind) (a : Byte) : argField (reqWord k a) = a := by
  apply BitVec.eq_of_toNat_eq
  have h := a.isLt
  rw [argField_toNat, reqWord_toNat]
  omega

@[simp] theorem kindOfCode_kindCode (k : Kind) : kindOfCode (kindCode k) = some k := by
  cases k <;> rfl

/-- R82: a code that has a kind is that kind's code. -/
theorem kindCode_of_kindOfCode {c : BitVec 4} {k : Kind} (h : kindOfCode c = some k) : kindCode k = c := by
  unfold kindOfCode at h
  repeat' (split at h; · cases h; simp_all [kindCode])
  cases h

/-- R183: a word of a kind and an argument is legal exactly when the argument is. -/
theorem requestOf_reqWord (k : Kind) (a : Byte) :
    requestOf (reqWord k a) = if argLegal k a then some (k, a) else none := by
  simp only [requestOf, rsvField_reqWord, kindField_reqWord, argField_reqWord, kindOfCode_kindCode]
  simp

/-- R183: a legal word is the word of its kind and its argument, and the argument is legal. -/
theorem requestOf_eq_some {w : Half} {k : Kind} {a : Byte} (h : requestOf w = some (k, a)) :
    argLegal k a = true ∧ w = reqWord k a := by
  unfold requestOf at h
  split at h
  · cases h
  · rename_i hr
    split at h
    · cases h
    · rename_i k' hk
      split at h
      · rename_i ha
        cases h
        refine ⟨ha, BitVec.eq_of_toNat_eq ?_⟩
        have hr0 : (rsvField w).toNat = 0 := by simpa using congrArg BitVec.toNat (not_not.1 hr)
        rw [rsvField_toNat] at hr0
        rw [reqWord_toNat, kindCode_of_kindOfCode hk, kindField_toNat, argField_toNat]
        omega
      · cases h

/-- R183: the row of a legal word. -/
theorem instrOfWord_reqWord {k : Kind} {a : Byte} (h : argLegal k a = true) :
    instrOfWord (reqWord k a) = instrOfRequest k a := by
  simp [instrOfWord, requestOf_reqWord, h]

/-- R141, R150: a frame with its own checksum and both sentinels is the row of its payload. -/
theorem instrOfFrame_frameOf (ty p2 p3 p4 p5 p6 p7 : Byte) :
    instrOfFrame (frameOf ty p2 p3 p4 p5 p6 p7) = instrOfPayload ty p2 p3 p4 p5 p6 p7 := by
  have h : validateInbound (frameOf ty p2 p3 p4 p5 p6 p7) = true :=
    (validateInbound_ten ..).2 ⟨rfl, rfl, rfl⟩
  rw [instrOfFrame, if_pos h]
  rfl

theorem decode_frameOf (ty p2 p3 p4 p5 p6 p7 : Byte) :
    decode ⟨.rx10, frameOf ty p2 p3 p4 p5 p6 p7⟩ = .ok (instrOfPayload ty p2 p3 p4 p5 p6 p7) := by
  rw [← instrOfFrame_frameOf]
  rfl

/-- R150: the row of a payload is well formed, and its encoding is the frame of that payload. -/
theorem encode_instrOfPayload (ty p2 p3 p4 p5 p6 p7 : Byte) :
    (instrOfPayload ty p2 p3 p4 p5 p6 p7).WF ∧
      encode (instrOfPayload ty p2 p3 p4 p5 p6 p7) = ⟨.rx10, frameOf ty p2 p3 p4 p5 p6 p7⟩ := by
  unfold instrOfPayload
  repeat' split
  all_goals simp_all [Instr.WF, Instr.wellFormed, encode]

theorem decode_encodeWord (w : Half) : decode (encodeWord w) = .ok (instrOfWord w) := by
  simp [decode, encodeWord, decodeRequest]

/-- A valid frame is `frameOf` of its type and its payload. -/
theorem frame_of_valid {F : List Byte} (h : validateInbound F = true) :
    F = frameOf (byteAt F 1) (byteAt F 2) (byteAt F 3) (byteAt F 4) (byteAt F 5) (byteAt F 6) (byteAt F 7) := by
  obtain ⟨f0, f1, f2, f3, f4, f5, f6, f7, f8, f9, rfl⟩ := exists_bytes_of_length_ten (validateInbound_length h)
  obtain ⟨rfl, rfl, rfl⟩ := (validateInbound_ten ..).1 h
  rfl

end Sys2Proof.Machine
end

