-- ==== Sys2Proof/Laws/Request.lean ====
section
/-! SUPPORT. Requests (spec/42_command_queue.md R181): what a REQ of each kind does, case by case. -/

namespace Sys2Proof.Machine

/-- The request of a row that stands for a legal word has a legal argument. -/
theorem argLegal_of_requestOfInstr {i : Instr} {k : Kind} {a : Byte} (h : requestOfInstr i = some (k, a)) (hw : i.WF) :
    argLegal k a = true := by
  cases i <;> simp only [requestOfInstr, Option.some.injEq, Prod.mk.injEq, reduceCtorEq] at h <;>
    obtain ⟨rfl, rfl⟩ := h <;> first | rfl | exact hw

/-- Each of the eight kinds is the same event: the closed test, the queue bound, the queue. -/
theorem exec_request {i : Instr} {k : Kind} {a : Byte} (h : requestOfInstr i = some (k, a)) (hw : i.WF) (s : State) :
    exec i s = .next (submit k a s) := by
  have hr : exec i s = .next (request k a s) := by
    cases i <;> simp only [requestOfInstr, Option.some.injEq, Prod.mk.injEq, reduceCtorEq] at h <;>
      obtain ⟨rfl, rfl⟩ := h <;> rfl
  rw [hr, request, if_pos (argLegal_of_requestOfInstr h hw)]

theorem submit_closed {k : Kind} {a : Byte} {s : State} (h : s.closed = true) :
    submit k a s = { s with out := s.out ++ [.reqresp .connectionClosed 0] } := by
  simp [submit, h, respond, emit]

theorem submit_full {k : Kind} {a : Byte} {s : State} (h : s.closed = false) (hq : s.q.length = s.cfg.qdepth.toNat) :
    submit k a s = { s with out := s.out ++ [.reqresp .queueFull 0] } := by
  simp [submit, h, hq, respond, emit]

/-- R33, as the handle's number says it. -/
theorem succHandle_eq (h : Byte) : succHandle h = if h.toNat = 255 then 1 else h + 1 := by
  have e : h = 255 ↔ h.toNat = 255 := ⟨fun e => by rw [e]; rfl, fun e => BitVec.eq_of_toNat_eq e⟩
  simp only [succHandle, e]

theorem submit_behind {k : Kind} {a : Byte} {s : State} (h : s.closed = false) (hq : s.q ≠ [])
    (hl : s.q.length ≠ s.cfg.qdepth.toNat) :
    submit k a s = { s with
      q := s.q ++ [⟨s.nextHandle, false, k, a⟩]
      nextHandle := succHandle s.nextHandle
      out := s.out ++ [.reqresp .accepted s.nextHandle] } := by
  simp [submit, h, hl, accept, hq, respond, emit]

theorem submit_first {k : Kind} {a : Byte} {s : State} (h : s.closed = false) (hq : s.q = []) (hc : s.cnt = 0)
    (hd : 1 ≤ s.cfg.qdepth.toNat) (hN : 1 ≤ s.cfg.allowedRetries.toNat) :
    submit k a s = { s with
      sensor := clearField k s.sensor
      q := [⟨s.nextHandle, false, k, a⟩]
      cnt := 1
      timerArmed := true
      nextHandle := succHandle s.nextHandle
      out := s.out ++ [.reqresp .accepted s.nextHandle, .tx (build s.cfg.querySettingId k a)] } := by
  have hl : ¬ 0 = s.cfg.qdepth.toNat := by omega
  simp only [submit, h, hq, List.length_nil, hl, if_false, accept, List.isEmpty_nil, if_true, List.nil_append,
    Bool.false_eq_true, attempt, respond_q]
  rw [attemptFrom_first (by simpa using hc) (by simpa using hN)]
  simp [respond, emit, txRecord]

theorem submit_noBudget {k : Kind} {a : Byte} {s : State} (h : s.closed = false) (hq : s.q = []) (hc : s.cnt = 0)
    (hd : 1 ≤ s.cfg.qdepth.toNat) (hN : s.cfg.allowedRetries = 0) :
    submit k a s = { s with
      sensor := clearField k s.sensor
      nextHandle := succHandle s.nextHandle
      out := s.out ++ [.reqresp .accepted s.nextHandle, .done s.nextHandle false k .retryExhausted 0] } := by
  have hl : ¬ 0 = s.cfg.qdepth.toNat := by omega
  simp only [submit, h, hq, List.length_nil, hl, if_false, accept, List.isEmpty_nil, if_true, List.nil_append,
    Bool.false_eq_true, attempt, respond_q]
  rw [attemptFrom_noBudget _ (by simpa using hc) (by simpa using hN) (by simp)]
  cases s
  simp_all [respond, emit, doneRecord, clearFields]

end Sys2Proof.Machine
end

