-- ==== Sys2Proof/Laws/Invariant.lean ====
section
/-! SUPPORT. The invariant of spec/10_state.md R37 through an attempt: what an attempt needs, and that it leaves the
state as R37 says. -/

namespace Sys2Proof.Machine

/-- A queue without its head is still a run of handles. -/
theorem HandleRun.tail {e : Entry} {rest : List Entry} {n : Byte} (h : HandleRun (e :: rest) n) : HandleRun rest n := by
  cases rest with
  | nil => trivial
  | cons e' r => exact h.2

/-- R33: the next handle, put at the end of a run, makes a run. -/
theorem HandleRun.push {q : List Entry} {n : Byte} (h : HandleRun q n) (b : Bool) (k : Kind) (a : Byte) :
    HandleRun (q ++ [⟨n, b, k, a⟩]) (succHandle n) := by
  induction q with
  | nil => rfl
  | cons e rest ih =>
    cases rest with
    | nil => exact ⟨h, rfl⟩
    | cons e' r => exact ⟨h.1, ih h.2⟩

theorem succHandle_ne_zero (h : Byte) : succHandle h ≠ 0 := by
  unfold succHandle
  split
  · decide
  · bv_omega

/-- What an attempt of the queue `q` needs: R37 but for the timer, which is not armed while an attempt runs (R251). -/
structure Ready (q : List Entry) (s : State) : Prop where
  queue : s.q = q
  params : s.cfg.WF
  bounded : q.length ≤ s.cfg.qdepth.toNat
  disarmed : s.timerArmed = false
  idle : q = [] → s.cnt = 0
  counted : s.cnt.toNat ≤ s.cfg.allowedRetries.toNat
  opened : q ≠ [] → s.closed = false
  shut : s.closed = true → q = []
  handles : HandleRun q s.nextHandle
  nextHandle : s.nextHandle ≠ 0
  boot : ∀ e ∈ q, (e.boot = true ↔ e.handle = 0)
  args : ∀ e ∈ q, argLegal e.kind e.arg = true

/-- The head of a ready queue may leave. -/
theorem Ready.finish {e : Entry} {rest : List Entry} {s : State} (h : Ready (e :: rest) s) (o : DoneOutcome) (r : Word) :
    Ready rest (finish e rest o r (beginAttempt e s)) where
  queue := by simp
  params := by simpa using h.params
  bounded := by have := h.bounded; simp at this ⊢; omega
  disarmed := by simpa using h.disarmed
  idle _ := by simp
  counted := by simp
  opened _ := by simpa using h.opened (by simp)
  shut hc := by simp [h.opened (by simp)] at hc
  handles := by simpa using h.handles.tail
  nextHandle := by simpa using h.nextHandle
  boot e' he := h.boot e' (by simp [he])
  args e' he := h.args e' (by simp [he])

/-- R37 after an attempt and everything it leads to. -/
theorem attemptFrom_inv {q : List Entry} {s : State} (h : Ready q s) : Inv (attemptFrom q s) := by
  induction q generalizing s with
  | nil =>
    have hq := h.queue
    exact ⟨h.params, by simp [attemptFrom, hq], by simp [attemptFrom, hq, h.disarmed], fun _ => h.idle rfl,
      fun hne => absurd hq hne, fun _ => hq, by simp [attemptFrom, hq, HandleRun], h.nextHandle,
      by simp [attemptFrom, hq], by simp [attemptFrom, hq]⟩
  | cons e rest ih =>
    simp only [attemptFrom]
    split
    · exact ih (h.finish _ _)
    · rename_i hb
      split
      · exact ih (h.finish _ _)
      · have hq := h.queue
        have hcl := h.opened (by simp)
        have hN : s.cfg.allowedRetries.toNat ≤ 254 := h.params.1
        have hc := h.counted
        have hcnt : (s.cnt + 1).toNat = s.cnt.toNat + 1 := by
          rw [BitVec.toNat_add]
          simp
          omega
        have hle : s.cnt.toNat + 1 ≤ s.cfg.allowedRetries.toNat := by
          rw [← hcnt]
          simpa [BitVec.lt_def] using hb
        exact
          { params := by simpa using h.params
            bounded := by simpa [hq] using h.bounded
            timer := by simp [hq]
            idle := fun hn => by simp [hq] at hn
            counting := fun _ => by
              rw [execute_cnt, beginAttempt_cnt, execute_cfg, beginAttempt_cfg, hcnt]
              omega
            shut := fun hn => by simp [hcl] at hn
            handles := by simpa [hq] using h.handles
            nextHandle := by simpa using h.nextHandle
            boot := by simpa [hq] using h.boot
            args := by simpa [hq] using h.args }

end Sys2Proof.Machine
end

