-- ==== Sys2Proof/Laws/Tick.lean ====
section
/-! SUPPORT. TICK (spec/42_command_queue.md R190, R191): its three branches, and a step of the machine that has no
input left. -/

namespace Sys2Proof.Machine

/-- An enabled TICK disarms the timer and attempts the head. -/
theorem exec_tick {e : Entry} {rest : List Entry} {s : State} (ht : s.timerArmed = true) (hq : s.q = e :: rest) :
    exec .tick s = .next (attemptFrom (e :: rest) { s with timerArmed := false }) := by
  simp [exec, execTick, ht, hq, attempt]

theorem add_one_toNat {c : Byte} (h : c.toNat ≤ 254) : (c + 1).toNat = c.toNat + 1 := by
  rw [BitVec.toNat_add]
  simp
  omega

/-- The budget test of R191 as numbers. -/
theorem budget_iff {n c : Byte} (h : c.toNat ≤ 254) : n < c + 1 ↔ n.toNat < c.toNat + 1 := by
  rw [BitVec.lt_def, add_one_toNat h]

theorem cnt_ne_zero {c : Byte} (h : 1 ≤ c.toNat) : c ≠ 0 := by
  rintro rfl
  simp at h

/-- The machine with no input left and an armed timer (log entry 3). -/
theorem step_noInput {s : State} (hi : s.inputs = []) (ht : s.timerArmed = true) : step s = exec .tick s := by
  simp [step, fetch, hi, ht]

/-- The machine with an input item that is an event. -/
theorem step_input {s : State} {x : Input} {rest : List Input} {i : Instr} (hi : s.inputs = x :: rest)
    (hx : decode x = .ok i) : step s = exec i { s with inputs := rest } := by
  simp [step, fetch, hi, hx]

/-- One more step at the front of a run. -/
theorem run_succ {n : Nat} {s t : State} (h : step s = .next t) :
    Host.Core.run Sys2Proof.core (n + 1) s = Host.Core.run Sys2Proof.core n t := by
  have h' : Sys2Proof.core.step s = .next t := h
  simp only [Host.Core.run, h']

end Sys2Proof.Machine
end

