-- ==== Sys2Proof/Laws/Exec.lean ====
section
/-! SUPPORT. Everything an event can do, said once (`exec_cases`), and everything a step can do (`step_cases`). Proofs
about every event cite these and unfold no meaning. -/

namespace Sys2Proof.Machine

/-! Attempts and the sensor-state fields. -/

/-- An attempt sets no valid bit. -/
theorem fieldValid_of_attemptFrom {q : List Entry} {s : State} {k : Kind}
    (h : fieldValid k (attemptFrom q s).sensor = true) : fieldValid k s.sensor = true := by
  induction q generalizing s with
  | nil => exact h
  | cons e rest ih =>
    have hb : fieldValid k (beginAttempt e s).sensor = true → fieldValid k s.sensor = true := by
      rw [beginAttempt_sensor]
      split
      · exact fieldValid_of_clearField
      · exact id
    simp only [attemptFrom] at h
    split at h <;> [skip; split at h]
    · have h' := ih h
      exact hb h'
    · have h' := ih h
      exact hb h'
    · exact hb h

/-- R22 through an attempt. -/
theorem attemptFrom_cleared (q : List Entry) {s : State} (hs : s.sensor.Cleared) : (attemptFrom q s).sensor.Cleared := by
  induction q generalizing s with
  | nil => exact hs
  | cons e rest ih =>
    have hb : (beginAttempt e s).sensor.Cleared := by
      rw [beginAttempt_sensor]
      split
      · exact clearField_cleared _ hs
      · exact hs
    simp only [attemptFrom]
    split <;> [skip; split]
    · exact ih hb
    · exact ih hb
    · exact hb

/-! Requests. -/

/-- A request is answered and that is all, or it is accepted. -/
theorem request_cases (k : Kind) (a : Byte) (s : State) :
    (∃ st h, request k a s = respond st h s) ∨
    (argLegal k a = true ∧ s.closed = false ∧ s.q.length ≠ s.cfg.qdepth.toNat ∧ request k a s = accept k a s) := by
  unfold request submit
  split <;> [split <;> [skip; split]; skip]
  · exact .inl ⟨_, _, rfl⟩
  · exact .inl ⟨_, _, rfl⟩
  · simp_all
  · exact .inl ⟨_, _, rfl⟩

theorem argLegal_of_requestOf {w : Half} {k : Kind} {a : Byte} (h : requestOf w = some (k, a)) :
    argLegal k a = true := by
  unfold requestOf at h
  split at h
  · cases h
  · split at h
    · cases h
    · split at h
      · simp only [Option.some.injEq, Prod.mk.injEq] at h
        obtain ⟨rfl, rfl⟩ := h
        assumption
      · cases h

/-- The same of a request word. -/
theorem requestWord_cases (w : Half) (s : State) :
    (∃ st h, requestWord w s = respond st h s) ∨
    ∃ k a, argLegal k a = true ∧ s.closed = false ∧ s.q.length ≠ s.cfg.qdepth.toNat ∧
      requestWord w s = accept k a s := by
  unfold requestWord
  split
  · exact .inl ⟨_, _, rfl⟩
  · rename_i k a h
    have e : submit k a s = request k a s := by rw [request, if_pos (argLegal_of_requestOf h)]
    rw [e]
    rcases request_cases k a s with h | h
    · exact .inl h
    · exact .inr ⟨_, _, h⟩

/-! Delivered frames. -/

/-- What the RX events have in common. -/
structure ReceiveEffect (s t : State) : Prop where
  cfg : t.cfg = s.cfg
  q : t.q = s.q
  cnt : t.cnt = s.cnt
  timerArmed : t.timerArmed = s.timerArmed
  nextHandle : t.nextHandle = s.nextHandle
  closed : t.closed = s.closed
  inputs : t.inputs = s.inputs
  rdAnswer : t.rdAnswer = s.rdAnswer
  cleared : s.sensor.Cleared → t.sensor.Cleared
  valid : ∀ k, fieldValid k s.sensor = true → fieldValid k t.sensor = true
  code : 1 ≤ (rxStatusCode t.lastRx).toNat
  sticky : t.unkSticky = true ↔ s.unkSticky = true ∨
    (s.cfg.onUnknown = .propagate ∧ (t.lastRx = .unknownSetting ∨ t.lastRx = .unknownFrameType))
  out : ∃ l, t.out = s.out ++ l ∧ ∀ r ∈ l, (∃ a b, r = .meas a b) ∨ ∃ st ty id, r = .rxerr st ty id

theorem decodePm_effect (a b c d : Byte) (s : State) : ReceiveEffect s (decodePm a b c d s) := by
  have hv (x y : Half) (k : Kind) : fieldValid k s.sensor = true → fieldValid k (setPm x y s.sensor) = true := by
    cases k <;> simp [fieldValid, setPm]
  unfold decodePm
  dsimp only
  split
  · exact ⟨rfl, rfl, rfl, rfl, rfl, rfl, rfl, rfl, setPm_cleared _ _, hv _ _, by simp [rxStatusCode], by simp,
      [.meas _ _], rfl, by simp⟩
  · exact ⟨rfl, rfl, rfl, rfl, rfl, rfl, rfl, rfl, setPm_cleared _ _, hv _ _, by simp [rxStatusCode], by simp,
      [], by simp, by simp⟩

theorem decodeMode_effect (b : Byte) (s : State) : ReceiveEffect s (decodeMode b s) :=
  ⟨rfl, rfl, rfl, rfl, rfl, rfl, rfl, rfl, setMode_cleared _,
    by intro k; cases k <;> simp [fieldValid, decodeMode, setMode], by simp [rxStatusCode, decodeMode],
    by simp [decodeMode], [], by simp [decodeMode], by simp⟩

theorem decodeSleep_effect (b : Byte) (s : State) : ReceiveEffect s (decodeSleep b s) :=
  ⟨rfl, rfl, rfl, rfl, rfl, rfl, rfl, rfl, setSleeping_cleared _,
    by intro k; cases k <;> simp [fieldValid, decodeSleep, setSleeping], by simp [rxStatusCode, decodeSleep],
    by simp [decodeSleep], [], by simp [decodeSleep], by simp⟩

theorem decodeFirmware_effect (y m d : Byte) (s : State) : ReceiveEffect s (decodeFirmware y m d s) :=
  ⟨rfl, rfl, rfl, rfl, rfl, rfl, rfl, rfl, setFirmware_cleared _ _ _,
    by intro k; cases k <;> simp [fieldValid, decodeFirmware, setFirmware], by simp [rxStatusCode, decodeFirmware],
    by simp [decodeFirmware], [], by simp [decodeFirmware], by simp⟩

theorem decodePeriod_effect (p : Byte) (s : State) : ReceiveEffect s (decodePeriod p s) :=
  ⟨rfl, rfl, rfl, rfl, rfl, rfl, rfl, rfl, setPeriod_cleared _,
    by intro k; cases k <;> simp [fieldValid, decodePeriod, setPeriod], by simp [rxStatusCode, decodePeriod],
    by simp [decodePeriod], [], by simp [decodePeriod], by simp⟩

theorem unknown_effect {st : RxStatus} (h : st = .unknownSetting ∨ st = .unknownFrameType) (ty id : Byte) (s : State) :
    ReceiveEffect s (unknown st ty id s) := by
  have hc : 1 ≤ (rxStatusCode st).toNat := by rcases h with rfl | rfl <;> simp [rxStatusCode]
  unfold unknown
  dsimp only
  split
  · rename_i hp
    exact ⟨rfl, rfl, rfl, rfl, rfl, rfl, rfl, rfl, fun x => x, fun _ x => x, by simpa using hc, by simp [hp, h],
      [.rxerr _ _ _], rfl, by simp⟩
  · rename_i hp
    exact ⟨rfl, rfl, rfl, rfl, rfl, rfl, rfl, rfl, fun x => x, fun _ x => x, by simpa using hc, by simp [hp],
      [], by simp, by simp⟩

/-- A frame that is dropped or discarded. -/
theorem lastRx_effect {st : RxStatus} (h : 1 ≤ (rxStatusCode st).toNat)
    (h' : ¬ (st = .unknownSetting ∨ st = .unknownFrameType)) (s : State) : ReceiveEffect s { s with lastRx := st } :=
  ⟨rfl, rfl, rfl, rfl, rfl, rfl, rfl, rfl, fun x => x, fun _ x => x, h, by simp [h'], [], by simp, by simp⟩

theorem receive_effect {f : State → State} {s : State} (h : ReceiveEffect s (f s)) : ReceiveEffect s (receive f s) := by
  unfold receive
  split
  · exact lastRx_effect (by simp [rxStatusCode]) (by simp) s
  · exact h

theorem dispatch_effect (F : List Byte) (s : State) : ReceiveEffect s (dispatch F s) := by
  unfold dispatch
  split
  · exact decodePm_effect _ _ _ _ _
  · split
    · split
      · exact decodeMode_effect _ _
      · split
        · exact decodeSleep_effect _ _
        · split
          · exact decodeFirmware_effect _ _ _ _
          · split
            · exact decodePeriod_effect _ _
            · exact unknown_effect (.inl rfl) _ _ _
    · exact unknown_effect (.inr rfl) _ _ _

theorem receiveFrame_effect (F : List Byte) (s : State) : ReceiveEffect s (receiveFrame F s) := by
  apply receive_effect
  split
  · exact lastRx_effect (by simp [rxStatusCode]) (by simp) s
  · exact lastRx_effect (by simp [rxStatusCode]) (by simp) s
  · exact dispatch_effect _ _

/-! Every event. -/

/-- The instructions that are REQ events. -/
abbrev isRequest (i : Instr) : Prop := isReceive i = false ∧ i ≠ .reset ∧ i ≠ .close ∧ i ≠ .tick ∧ ∀ n, i ≠ .rd n

/-- An event that gives a next state is a received frame, a request that is only answered, an accepted request,
RESET, CLOSE, an enabled TICK or RD. -/
theorem exec_cases {i : Instr} {s t : State} (h : exec i s = .next t) :
    (isReceive i = true ∧ ReceiveEffect s t) ∨
    (isRequest i ∧ ∃ st n, t = respond st n s) ∨
    (isRequest i ∧ ∃ k a, argLegal k a = true ∧ s.closed = false ∧ s.q.length ≠ s.cfg.qdepth.toNat ∧
      t = accept k a s) ∨
    (i = .reset ∧ t = resetAll s) ∨
    (i = .close ∧ t = closeConnection s) ∨
    (i = .tick ∧ s.timerArmed = true ∧ s.q ≠ [] ∧ t = attempt { s with timerArmed := false }) ∨
    (∃ n, i = .rd n ∧ t = { s with rdAnswer := some (regRead n s) }) := by
  have ofRequest {k : Kind} {a : Byte} (hi : isRequest i) (ht : t = request k a s) :
      (isRequest i ∧ ∃ st n, t = respond st n s) ∨
      (isRequest i ∧ ∃ k a, argLegal k a = true ∧ s.closed = false ∧ s.q.length ≠ s.cfg.qdepth.toNat ∧
        t = accept k a s) := by
    subst ht
    rcases request_cases k a s with h | h
    · exact .inl ⟨hi, h⟩
    · exact .inr ⟨hi, _, _, h⟩
  have ofWord {w : Half} (hi : isRequest i) (ht : t = requestWord w s) :
      (isRequest i ∧ ∃ st n, t = respond st n s) ∨
      (isRequest i ∧ ∃ k a, argLegal k a = true ∧ s.closed = false ∧ s.q.length ≠ s.cfg.qdepth.toNat ∧
        t = accept k a s) := by
    subst ht
    rcases requestWord_cases w s with h | h
    · exact .inl ⟨hi, h⟩
    · exact .inr ⟨hi, h⟩
  cases i
  case queryPm | getMode | setMode | getSleep | setSleep | getFirmware | getPeriod | setPeriod =>
    cases h
    rcases ofRequest ⟨rfl, by simp, by simp, by simp, by simp⟩ rfl with h | h
    · exact .inr (.inl h)
    · exact .inr (.inr (.inl h))
  case reqIllegal | req =>
    cases h
    rcases ofWord ⟨rfl, by simp, by simp, by simp, by simp⟩ rfl with h | h
    · exact .inr (.inl h)
    · exact .inr (.inr (.inl h))
  case rxPm =>
    cases h
    exact .inl ⟨rfl, receive_effect (decodePm_effect _ _ _ _ _)⟩
  case rxMode =>
    cases h
    exact .inl ⟨rfl, receive_effect (decodeMode_effect _ _)⟩
  case rxSleep =>
    cases h
    exact .inl ⟨rfl, receive_effect (decodeSleep_effect _ _)⟩
  case rxFirmware =>
    cases h
    exact .inl ⟨rfl, receive_effect (decodeFirmware_effect _ _ _ _)⟩
  case rxPeriod =>
    cases h
    exact .inl ⟨rfl, receive_effect (decodePeriod_effect _ _)⟩
  case rxUnknownSetting =>
    cases h
    exact .inl ⟨rfl, receive_effect (unknown_effect (.inl rfl) _ _ _)⟩
  case rxUnknownType =>
    cases h
    exact .inl ⟨rfl, receive_effect (unknown_effect (.inr rfl) _ _ _)⟩
  case rxInvalid | rx =>
    cases h
    exact .inl ⟨rfl, receiveFrame_effect _ _⟩
  case reset =>
    cases h
    simp
  case close =>
    cases h
    simp
  case rd n =>
    cases h
    exact .inr (.inr (.inr (.inr (.inr (.inr ⟨n, rfl, rfl⟩)))))
  case tick =>
    simp only [exec, execTick] at h
    split at h
    · cases h
    · split at h
      · cases h
      · cases h
        simp_all

/-- A step that gives a next state is idle, or is an event in the state without the input item it was taken from. -/
theorem step_cases {s t : State} (h : step s = .next t) :
    t = s ∨ ∃ i l, exec i { s with inputs := l } = .next t := by
  unfold step fetch at h
  cases hi : s.inputs with
  | nil =>
    simp only [hi] at h
    split at h <;> rename_i h' <;> split at h' <;> simp only [Fetched.event.injEq, reduceCtorEq] at h'
    · obtain ⟨rfl, rfl⟩ := h'
      exact .inr ⟨_, s.inputs, h⟩
    · cases h
      exact .inl rfl
  | cons x rest =>
    simp only [hi] at h
    cases hd : decode x with
    | ok i =>
      simp only [hd] at h
      exact .inr ⟨i, rest, h⟩
    | error e =>
      simp only [hd] at h
      cases h

end Sys2Proof.Machine
end

