-- ==== Sys2Proof/Laws/PerInstr.lean ====
section
/-! SUPPORT. Statements about every instruction as syntax, one lemma per constructor. -/

namespace Sys2Proof.Laws.EncodedLength

open Sys2Proof.Machine

/-- The length of an input item (spec/30_encoding.md R81, R86, R91, R95): a request word is two bytes, a valid frame
ten, a discarded frame and an event at most what an event with a 255-byte frame takes. -/
def Statement (i : Instr) : Prop :=
  i.WF →
    match (encode i).format with
    | .req16 => (encode i).bytes.length = 2
    | .rx10 => (encode i).bytes.length ≤ 255 ∧ ((∀ F, i ≠ .rxInvalid F) → (encode i).bytes.length = 10)
    | .ev3 => 1 ≤ (encode i).bytes.length ∧ (encode i).bytes.length ≤ 257

theorem queryPm : Statement .queryPm := fun _ => rfl

theorem getMode : Statement .getMode := fun _ => rfl

theorem setMode (a : Byte) : Statement (.setMode a) := fun _ => rfl

theorem getSleep : Statement .getSleep := fun _ => rfl

theorem setSleep (a : Byte) : Statement (.setSleep a) := fun _ => rfl

theorem getFirmware : Statement .getFirmware := fun _ => rfl

theorem getPeriod : Statement .getPeriod := fun _ => rfl

theorem setPeriod (a : Byte) : Statement (.setPeriod a) := fun _ => rfl

theorem reqIllegal (w : Half) : Statement (.reqIllegal w) := fun _ => rfl

theorem rxPm (a b c d e f : Byte) : Statement (.rxPm a b c d e f) :=
  fun _ => ⟨by simp [encode, frameOf], fun _ => rfl⟩

theorem rxMode (a b c d e : Byte) : Statement (.rxMode a b c d e) :=
  fun _ => ⟨by simp [encode, frameOf], fun _ => rfl⟩

theorem rxSleep (a b c d e : Byte) : Statement (.rxSleep a b c d e) :=
  fun _ => ⟨by simp [encode, frameOf], fun _ => rfl⟩

theorem rxFirmware (a b c d e : Byte) : Statement (.rxFirmware a b c d e) :=
  fun _ => ⟨by simp [encode, frameOf], fun _ => rfl⟩

theorem rxPeriod (a b c d e : Byte) : Statement (.rxPeriod a b c d e) :=
  fun _ => ⟨by simp [encode, frameOf], fun _ => rfl⟩

theorem rxUnknownSetting (a b c d e f : Byte) : Statement (.rxUnknownSetting a b c d e f) :=
  fun _ => ⟨by simp [encode, frameOf], fun _ => rfl⟩

theorem rxUnknownType (a b c d e f g : Byte) : Statement (.rxUnknownType a b c d e f g) :=
  fun _ => ⟨by simp [encode, frameOf], fun _ => rfl⟩

theorem rxInvalid (F : List Byte) : Statement (.rxInvalid F) :=
  fun h => ⟨by simp [Instr.WF, Instr.wellFormed] at h; exact h.1, fun hn => absurd rfl (hn F)⟩

theorem reset : Statement .reset := fun _ => by simp [encode]

theorem req (w : Half) : Statement (.req w) := fun _ => by simp [encode]

theorem rx (F : List Byte) : Statement (.rx F) := fun h => by
  have h' : F.length ≤ 255 := by simpa [Instr.WF, Instr.wellFormed] using h
  exact ⟨by simp [encode], by simp [encode]; omega⟩

theorem tick : Statement .tick := fun _ => by simp [encode]

theorem close : Statement .close := fun _ => by simp [encode]

theorem rd (n : Byte) : Statement (.rd n) := fun _ => by simp [encode]

end Sys2Proof.Laws.EncodedLength
end

