-- ==== Sys2Proof/Machine/Program.lean ====
section
/-! DEFINITION. The program notation of spec/30_encoding.md R97 and its pseudo-forms of R98: each line is one input
item. A notation of the spec, not a part of the PE; no step uses it. -/

namespace Sys2Proof.Machine

/-- The register names of spec/10_state.md R41. -/
inductive HostReg where
  | status | config | pm | valid | modeSleep | firmware | period | head
  deriving DecidableEq, Repr

/-- R41: the number of a named register. -/
def regNumber : HostReg → Byte
  | .status => 0x00
  | .config => 0x01
  | .pm => 0x02
  | .valid => 0x03
  | .modeSleep => 0x04
  | .firmware => 0x05
  | .period => 0x06
  | .head => 0x07

/-- R97, R98: a line of an event program. -/
inductive ProgramLine where
  | reset
  /-- `req <KIND-mnemonic> <arg>`. -/
  | req (k : Kind) (arg : Byte)
  /-- `req SLEEP`. -/
  | reqSleep
  /-- `req WAKE`. -/
  | reqWake
  /-- `req QUERY`. -/
  | reqQuery
  /-- `req.raw <w>`. -/
  | reqRaw (w : Half)
  | rx (frame : List Byte)
  | tick
  | close
  | rd (n : Byte)
  /-- `rd <register name>`. -/
  | rdName (r : HostReg)
  deriving DecidableEq, Repr

/-- R97, R98: the event of a line. -/
def lineEvent : ProgramLine → Instr
  | .reset => .reset
  | .req k arg => .req (reqWord k arg)
  | .reqSleep => .req (reqWord .setSleep 0)
  | .reqWake => .req (reqWord .setSleep 1)
  | .reqQuery => .req (reqWord .queryPm 0)
  | .reqRaw w => .req w
  | .rx F => .rx F
  | .tick => .tick
  | .close => .close
  | .rd n => .rd n
  | .rdName r => .rd (regNumber r)

/-- The input items of a program, in order. -/
def assemble (p : List ProgramLine) : List Input := p.map fun l => encode (lineEvent l)

end Sys2Proof.Machine
end

