-- ==== Sys2Proof/Machine/Render.lean ====
section
/-! DEFINITION. The renderings of spec/41_frame_decode.md R158 and R159. The PE does not produce them; the spec gives
them as output functions of the registers, and no step uses them (log entry 19). -/

namespace Sys2Proof.Machine

/-- R158 `dec`: an unsigned number in decimal, no leading zeros. -/
def dec (n : Nat) : String := Nat.repr n

/-- R158: the firmware string. -/
def firmwareString (x : Sensor) : String :=
  dec x.fwY.toNat ++ "-" ++ dec x.fwM.toNat ++ "-" ++ dec x.fwD.toNat

/-- R159: a reading register as a decimal with one fractional digit; the register holds tenths (R24). -/
def readingString (r : Half) : String := dec (r.toNat / 10) ++ "." ++ dec (r.toNat % 10)

end Sys2Proof.Machine
end

