-- ==== Sys2Proof/Tests/Slice0.lean ====
section
/-! SUPPORT. The model's own tests: ill-formed terms, words written out from spec/opcode_table.json and
spec/30_encoding.md, one-step tests whose expected values are the vectors of spec/95_test_vectors.md, and for every
obligation with hypotheses a concrete input that meets them. -/

namespace Sys2Proof.Tests

open Sys2Proof.Machine
open Host (Outcome)

/-! Ill-formed terms, one for each check of WellFormed. -/

theorem test_illFormed_setMode : (Instr.setMode 2).wellFormed = false := by decide
theorem test_illFormed_setSleep : (Instr.setSleep 255).wellFormed = false := by decide
theorem test_illFormed_setPeriod : (Instr.setPeriod 31).wellFormed = false := by decide
theorem test_illFormed_reqIllegal : (Instr.reqIllegal 0x071E).wellFormed = false := by decide
theorem test_illFormed_rxUnknownSetting_mode : (Instr.rxUnknownSetting 0x02 0 0 0 0 0).wellFormed = false := by decide
theorem test_illFormed_rxUnknownSetting_sleep : (Instr.rxUnknownSetting 0x06 0 0 0 0 0).wellFormed = false := by decide
theorem test_illFormed_rxUnknownSetting_firmware : (Instr.rxUnknownSetting 0x07 0 0 0 0 0).wellFormed = false := by
  decide
theorem test_illFormed_rxUnknownSetting_period : (Instr.rxUnknownSetting 0x08 0 0 0 0 0).wellFormed = false := by decide
theorem test_illFormed_rxUnknownType_pm : (Instr.rxUnknownType 0xC0 0 0 0 0 0 0).wellFormed = false := by decide
theorem test_illFormed_rxUnknownType_setting : (Instr.rxUnknownType 0xC5 0 0 0 0 0 0).wellFormed = false := by decide
theorem test_illFormed_rxInvalid_valid :
    (Instr.rxInvalid [0xAA, 0xC0, 0, 0, 0, 0, 0, 0, 0, 0xAB]).wellFormed = false := by decide
theorem test_illFormed_rxInvalid_long : (Instr.rxInvalid (List.replicate 256 0)).wellFormed = false := by
  simp only [Instr.wellFormed, List.length_replicate]; rfl
theorem test_illFormed_rx_long : (Instr.rx (List.replicate 256 0)).wellFormed = false := by
  simp only [Instr.wellFormed, List.length_replicate]; rfl

/-! Decoding: a word of every row. REQ16 words are written RSV, KIND, ARG from bit 15 down. -/

theorem test_decode_queryPm : decodeTableWord 16 0b0000000000000000 = some .queryPm := by decide
theorem test_decode_getMode : decodeTableWord 16 0b0000000100000000 = some .getMode := by decide
theorem test_decode_setMode : decodeTableWord 16 0b0000001000000001 = some (.setMode 1) := by decide
theorem test_decode_getSleep : decodeTableWord 16 0b0000001100000000 = some .getSleep := by decide
theorem test_decode_setSleep : decodeTableWord 16 0b0000010000000001 = some (.setSleep 1) := by decide
theorem test_decode_getFirmware : decodeTableWord 16 0b0000010100000000 = some .getFirmware := by decide
theorem test_decode_getPeriod : decodeTableWord 16 0b0000011000000000 = some .getPeriod := by decide
theorem test_decode_setPeriod : decodeTableWord 16 0b0000011100011110 = some (.setPeriod 30) := by decide
theorem test_decode_reqIllegal_kind : decodeTableWord 16 0b0000100000000000 = some (.reqIllegal 0x0800) := by decide
theorem test_decode_reqIllegal_rsv : decodeTableWord 16 0b0001000000000000 = some (.reqIllegal 0x1000) := by decide

/-- X3. -/
theorem test_decode_rxPm :
    decode ⟨.rx10, [0xAA, 0xC0, 0x4B, 0x00, 0x51, 0x00, 0xA1, 0x60, 0x9D, 0xAB]⟩ =
      .ok (.rxPm 0x4B 0x00 0x51 0x00 0xA1 0x60) := by rfl
/-- X4. -/
theorem test_decode_rxMode :
    decode ⟨.rx10, [0xAA, 0xC5, 0x02, 0x00, 0x01, 0x00, 0xA1, 0x60, 0x04, 0xAB]⟩ =
      .ok (.rxMode 0x00 0x01 0x00 0xA1 0x60) := by rfl
/-- V35. -/
theorem test_decode_rxSleep :
    decode ⟨.rx10, [0xAA, 0xC5, 0x06, 0x01, 0x00, 0x00, 0xA1, 0x60, 0x08, 0xAB]⟩ =
      .ok (.rxSleep 0x01 0x00 0x00 0xA1 0x60) := by rfl
/-- X5. -/
theorem test_decode_rxFirmware :
    decode ⟨.rx10, [0xAA, 0xC5, 0x07, 0x10, 0x0B, 0x15, 0xA1, 0x60, 0x38, 0xAB]⟩ =
      .ok (.rxFirmware 0x10 0x0B 0x15 0xA1 0x60) := by rfl
/-- X6. -/
theorem test_decode_rxPeriod :
    decode ⟨.rx10, [0xAA, 0xC5, 0x08, 0x00, 0x1E, 0x00, 0xA1, 0x60, 0x27, 0xAB]⟩ =
      .ok (.rxPeriod 0x00 0x1E 0x00 0xA1 0x60) := by rfl
/-- V43: the query's own setting id is no response's. -/
theorem test_decode_rxUnknownSetting :
    decode ⟨.rx10, [0xAA, 0xC5, 0x04, 0x00, 0x00, 0x00, 0xA1, 0x60, 0x05, 0xAB]⟩ =
      .ok (.rxUnknownSetting 0x04 0x00 0x00 0x00 0xA1 0x60) := by rfl
/-- V42. -/
theorem test_decode_rxUnknownType :
    decode ⟨.rx10, [0xAA, 0xC4, 0x00, 0x00, 0x00, 0x00, 0xA1, 0x60, 0x01, 0xAB]⟩ =
      .ok (.rxUnknownType 0xC4 0x00 0x00 0x00 0x00 0xA1 0x60) := by rfl
/-- V21. -/
theorem test_decode_rxInvalid :
    decode ⟨.rx10, [0xAA, 0xC0, 0x4B, 0x00, 0x51, 0x00, 0xA1, 0x60, 0x9C, 0xAB]⟩ =
      .ok (.rxInvalid [0xAA, 0xC0, 0x4B, 0x00, 0x51, 0x00, 0xA1, 0x60, 0x9C, 0xAB]) := by rfl

theorem test_decode_reset : decodeTableWord 8 0b000 = some .reset := by decide
theorem test_decode_req : decode ⟨.ev3, [1, 0x1E, 0x07]⟩ = .ok (.req 0x071E) := by rfl
theorem test_decode_rx : decode ⟨.ev3, [2, 3, 0xAA, 0xC0, 0xAB]⟩ = .ok (.rx [0xAA, 0xC0, 0xAB]) := by rfl
theorem test_decode_tick : decodeTableWord 8 0b011 = some .tick := by decide
theorem test_decode_close : decodeTableWord 8 0b100 = some .close := by decide
theorem test_decode_rd : decode ⟨.ev3, [5, 0x07]⟩ = .ok (.rd 0x07) := by rfl
theorem test_decode_reserved : decodeTableWord 8 0b110 = none ∧ decodeTableWord 8 0b111 = none := by decide
theorem test_decode_eventTooShort : decode ⟨.ev3, [1, 0x00]⟩ = .error .operandLength := by rfl

/-- The very next step takes the word that `withFetchWord` places. -/
theorem test_withFetchWord : step (State.reset.withFetchWord 8 4) = exec .close State.reset := by rfl

/-- R97: a line of a program. -/
theorem test_assemble :
    assemble [.req .setPeriod 30, .tick, .rdName .head] =
      [⟨.ev3, [1, 0x1E, 0x07]⟩, ⟨.ev3, [3]⟩, ⟨.ev3, [5, 0x07]⟩] := by decide

/-! One step, on small states. -/

/-- Nothing queued, nothing set, `budget` attempts for each command. -/
def idleState (budget : Byte) : State :=
  { State.reset with
    cfg := { Config.standard with allowedRetries := budget }, q := [], cnt := 0, timerArmed := false, out := [] }

/-- One command in flight, host handle 1, after its `n`-th attempt. -/
def waitingState (budget n : Byte) (k : Kind) (a : Byte) : State :=
  { idleState budget with q := [⟨1, false, k, a⟩], cnt := n, timerArmed := true, nextHandle := 2 }

/-- Two commands queued behind each other, the bootstrap at its second attempt. -/
def pairState : State :=
  { idleState 3 with
    q := [⟨0, true, .queryPm, 0⟩, ⟨1, false, .setPeriod, 30⟩], cnt := 2, timerArmed := true, nextHandle := 2 }

def closedState : State := { idleState 3 with closed := true }

/-- A state with both commands of `pairState` and no room for a third. -/
def fullState : State := { pairState with cfg := { Config.standard with qdepth := 2 } }

def ignoring (s : State) : State := { s with cfg := { s.cfg with onUnknown := .ignore } }

/-- The event gives a next state with the property. -/
def leads (i : Instr) (s : State) (p : State → Bool) : Bool :=
  match exec i s with
  | .next t => p t
  | .fault _ | .refused _ => false

/-- The records of a TX frame with this setting id, write flag, data byte and checksum (R84). -/
def txFrame (sid wf data ck : Byte) : Record :=
  .tx [0xAA, 0xB4, sid, wf, data, 0, 0, 0, 0, 0, 0, 0, 0, 0, 0, 0xFF, 0xFF, ck, 0xAB]

/-- V10. -/
theorem test_queryPm_sends :
    leads .queryPm (idleState 3) (fun t => t.out == [.reqresp .accepted 1, txFrame 0x04 0 0 0x02]) = true := by decide
/-- V11. -/
theorem test_getMode_sends :
    leads .getMode (idleState 3) (fun t => t.out == [.reqresp .accepted 1, txFrame 0x02 0 0 0x00]) = true := by decide
/-- V13. -/
theorem test_setMode_sends :
    leads (.setMode 1) (idleState 3) (fun t => t.out == [.reqresp .accepted 1, txFrame 0x02 1 1 0x02]) = true := by
  decide
/-- V14. -/
theorem test_getSleep_sends :
    leads .getSleep (idleState 3) (fun t => t.out == [.reqresp .accepted 1, txFrame 0x06 0 0 0x04]) = true := by decide
/-- V15. -/
theorem test_setSleep_sends :
    leads (.setSleep 0) (idleState 3) (fun t => t.out == [.reqresp .accepted 1, txFrame 0x06 1 0 0x05]) = true := by
  decide
/-- V17. -/
theorem test_getFirmware_sends :
    leads .getFirmware (idleState 3) (fun t => t.out == [.reqresp .accepted 1, txFrame 0x07 0 0 0x05]) = true := by
  decide
/-- V18. -/
theorem test_getPeriod_sends :
    leads .getPeriod (idleState 3) (fun t => t.out == [.reqresp .accepted 1, txFrame 0x08 0 0 0x06]) = true := by decide
/-- V19c. -/
theorem test_setPeriod_sends :
    leads (.setPeriod 30) (idleState 3) (fun t => t.out == [.reqresp .accepted 1, txFrame 0x08 1 0x1E 0x25]) = true := by
  decide
/-- V58: validation comes before the closed test. -/
theorem test_reqIllegal_closed :
    leads (.reqIllegal 0x0800) closedState (fun t => t.out == [.reqresp .invalidArgument 0]) = true := by decide
/-- V59b: the handle skips 0. -/
theorem test_req_handle255 :
    leads (.req 0x0100) { idleState 3 with nextHandle := 255 }
      (fun t => t.out == [.reqresp .accepted 255, txFrame 0x02 0 0 0x00] && t.nextHandle == 1) = true := by decide
/-- V59a. -/
theorem test_req_full :
    leads (.req 0x0100) fullState (fun t => t.out == [.reqresp .queueFull 0] && t.nextHandle == 2) = true := by decide

/-- V33. -/
theorem test_rxPm_streams :
    leads (.rxPm 0x34 0x12 0xE8 0x03 0xA1 0x60) { idleState 3 with sensor := { Sensor.unset with modeV := true } }
      (fun t => t.sensor.pmA == 0x1234 && t.sensor.pmB == 0x03E8 && t.out == [.meas 4660 1000]) = true := by decide
/-- V32: no MEAS while the mode is not known. -/
theorem test_rxPm_modeUnknown :
    leads (.rxPm 0x4B 0x00 0x51 0x00 0xA1 0x60) (idleState 3)
      (fun t => t.sensor.pmA == 75 && t.sensor.pmV && t.out == []) = true := by decide
/-- V34. -/
theorem test_rxMode_nonzero :
    leads (.rxMode 0 2 0 0xA1 0x60) (idleState 3) (fun t => t.sensor.mode == .query && t.sensor.modeV) = true := by
  decide
/-- V35. -/
theorem test_rxSleep_zero :
    leads (.rxSleep 1 0 0 0xA1 0x60) (idleState 3) (fun t => t.sensor.sleeping && t.sensor.sleepV) = true := by decide
/-- X5. -/
theorem test_rxFirmware :
    leads (.rxFirmware 0x10 0x0B 0x15 0xA1 0x60) (idleState 3) (fun t => regRead 0x05 t == 0x00150B10) = true := by
  decide
/-- V37. -/
theorem test_rxPeriod_above30 :
    leads (.rxPeriod 0 0xC8 0 0xA1 0x60) (idleState 3) (fun t => t.sensor.period == 200 && t.sensor.periodV) = true := by
  decide
/-- V40. -/
theorem test_rxUnknownSetting_reports :
    leads (.rxUnknownSetting 0x05 0 0 0 0xA1 0x60) (idleState 3)
      (fun t => t.unkSticky && t.lastRx == .unknownSetting && t.out == [.rxerr .unknownSetting 0xC5 0x05]) = true := by
  decide
/-- V41. -/
theorem test_rxUnknownSetting_ignored :
    leads (.rxUnknownSetting 0x05 0 0 0 0xA1 0x60) (ignoring (idleState 3))
      (fun t => !t.unkSticky && t.lastRx == .unknownSetting && t.out == []) = true := by decide
/-- V42. -/
theorem test_rxUnknownType_reports :
    leads (.rxUnknownType 0xC4 0 0 0 0 0xA1 0x60) (idleState 3)
      (fun t => t.unkSticky && t.lastRx == .unknownFrameType && t.out == [.rxerr .unknownFrameType 0xC4 0x00]) = true := by
  decide
/-- V22. -/
theorem test_rxInvalid_short :
    leads (.rxInvalid [0xAA, 0xC0, 0x4B, 0x00, 0x51, 0x00, 0xA1, 0x60, 0x9D]) (idleState 3)
      (fun t => t.lastRx == .malformed && t.sensor == Sensor.unset) = true := by decide
/-- V27: the header test comes first. -/
theorem test_rxInvalid_header :
    leads (.rxInvalid [0xAB, 0xC0, 0x4B, 0x00, 0x51, 0x00, 0xA1, 0x60, 0x00, 0xAA]) (idleState 3)
      (fun t => t.lastRx == .malformed) = true := by decide
/-- V28. -/
theorem test_rx_pm :
    leads (.rx [0xAA, 0xC0, 0xFF, 0xFF, 0xFF, 0xFF, 0xFF, 0xFF, 0xFA, 0xAB]) (idleState 3)
      (fun t => t.sensor.pmA == 65535 && t.sensor.pmB == 65535 && t.lastRx == .okPm) = true := by decide
/-- V29a. -/
theorem test_rx_closed :
    leads (.rx [0xAA, 0xC0, 0x4B, 0x00, 0x51, 0x00, 0xA1, 0x60, 0x9D, 0xAB]) closedState
      (fun t => t.lastRx == .droppedClosed && t.sensor == Sensor.unset) = true := by decide

/-- V61: the response before the second attempt. -/
theorem test_tick_success :
    leads .tick { waitingState 3 1 .getMode 0 with sensor := { Sensor.unset with mode := .query, modeV := true } }
      (fun t => t.out == [.done 1 false .getMode .success 1] && t.q == [] && !t.timerArmed) = true := by decide
/-- V63: a response after the last TX does not count. -/
theorem test_tick_lastAttempt :
    leads .tick { waitingState 3 3 .getMode 0 with sensor := { Sensor.unset with mode := .query, modeV := true } }
      (fun t => t.out == [.done 1 false .getMode .retryExhausted 0] && t.cnt == 0) = true := by decide
/-- V70. -/
theorem test_close_failsPending :
    leads .close pairState
      (fun t => t.closed && t.q == [] && t.cnt == 0 && !t.timerArmed && t.out ==
        [.done 0 true .queryPm .connectionClosed 0, .done 1 false .setPeriod .connectionClosed 0, .closed]) = true := by
  decide
/-- V72. -/
theorem test_close_twice : leads .close closedState (fun t => t == closedState) = true := by decide
/-- V80. -/
theorem test_reset :
    leads .reset { closedState with lastRx := .malformed, unkSticky := true }
      (fun t => t.out == [txFrame 0x04 0 0 0x02] && regRead 0x00 t == 0x01010106 && regRead 0x07 t == 0x00011000) =
        true := by decide
/-- V81. -/
theorem test_reset_noBudget :
    leads .reset (idleState 0)
      (fun t => t.out == [.done 0 true .queryPm .retryExhausted 0] && regRead 0x00 t == 0x01000000) = true := by decide
/-- V91. -/
theorem test_rd_config :
    leads (.rd 0x01) State.reset (fun t => t.rdAnswer == some 0x04080300 && t.out == State.reset.out) = true := by decide
/-- P3, line 9. -/
theorem test_rd_status_lastRx :
    leads (.rd 0x00) { closedState with lastRx := .droppedClosed, nextHandle := 3 }
      (fun t => t.rdAnswer == some 0x03000071) = true := by decide
/-- V94. -/
theorem test_rd_undefinedNumber : leads (.rd 0x08) pairState (fun t => t.rdAnswer == some 0) = true := by decide

/-! The checksum unit and the renderings. -/

/-- V2, V3. -/
theorem test_sum8 : sum8 [0xFF, 0x01] = 0 ∧ sum8 [0xFF, 0xFF, 0xFF, 0xFF, 0xFF, 0xFF] = 0xFA := by decide
/-- V6. -/
theorem test_ckIn : ckIn [0xAA, 0xC0, 0x34, 0x12, 0xE8, 0x03, 0xA1, 0x60, 0x32, 0xAB] = 0x32 := by decide
/-- X5: the rendering of the source's own example. -/
theorem test_firmwareString :
    firmwareString { Sensor.unset with fwY := 0x10, fwM := 0x0B, fwD := 0x15 } = "16-11-21" := by decide
/-- X3. -/
theorem test_readingString : readingString 75 = "7.5" ∧ readingString 81 = "8.1" := by decide
/-- V28. -/
theorem test_readingString_top : readingString 65535 = "6553.5" := by decide

/-! Witnesses: for each obligation with hypotheses, and for each clause of it with hypotheses of its own, a concrete
input that meets all of them together. -/

theorem inv_pairState : Inv pairState := by
  constructor <;> simp [State.reset, pairState, idleState, Config.standard, Config.WF, HandleRun, succHandle, argLegal]

theorem inv_closedState : Inv closedState := by
  constructor <;> simp [closedState, idleState, Config.standard, Config.WF, HandleRun, State.reset]

theorem inv_oneAttempt : Inv (waitingState 1 1 .getMode 0) := by
  constructor <;> simp [State.reset, waitingState, idleState, Config.standard, Config.WF, HandleRun, succHandle, argLegal]

theorem inv_noBudget : Inv (idleState 0) := by
  constructor <;> simp [idleState, Config.standard, Config.WF, HandleRun, State.reset]

/-- A valid PM frame, X3. -/
def pmFrame : List Byte := [0xAA, 0xC0, 0x4B, 0x00, 0x51, 0x00, 0xA1, 0x60, 0x9D, 0xAB]

theorem witness_DecodeEncodeRoundTrip :
    (Instr.setPeriod 30).WF ∧ (Instr.rxInvalid []).WF ∧ (Instr.rx pmFrame).WF ∧
      (Instr.rxUnknownSetting 0x05 0 0 0 0 0).WF ∧ (Instr.reqIllegal 0x071F).WF := by decide
theorem witness_EncodeDecodeRoundTrip : decode ⟨.ev3, [2, 0]⟩ = .ok (.rx []) := by rfl
theorem witness_OpcodeTableWordsDecode :
    (0 : Byte).toNat ≤ 30 ∧ (30 : Byte).toNat ≤ 30 ∧ legal 0x071F = false ∧ legal 0x0800 = false ∧
      ([] : List Byte).length ≤ 255 := by decide
/-- The ids and types beside the known ones. -/
theorem witness_FrameBytesSelectTheirRow :
    (∀ f2 ∈ ([0x00, 0x01, 0x03, 0x05, 0x09, 0xFF] : List Byte), f2 ≠ 0x02 ∧ f2 ≠ 0x06 ∧ f2 ≠ 0x07 ∧ f2 ≠ 0x08) ∧
      ∀ ty ∈ ([0x00, 0xBF, 0xC1, 0xC4, 0xC6, 0xFF] : List Byte), ty ≠ 0xC0 ∧ ty ≠ 0xC5 := by decide
theorem witness_ReservedEventCodesStop :
    ∃ s s' : State, s.inputs = ⟨.ev3, 6 :: [0]⟩ :: [] ∧ s'.inputs = ⟨.ev3, 7 :: []⟩ :: [] :=
  ⟨{ State.reset with inputs := [⟨.ev3, [6, 0]⟩] }, { State.reset with inputs := [⟨.ev3, [7]⟩] }, rfl, rfl⟩
theorem witness_StepRunsDecodedEvent :
    ∃ s : State, s.inputs = ⟨.ev3, [3]⟩ :: [] ∧ decode ⟨.ev3, [3]⟩ = .ok .tick :=
  ⟨{ State.reset with inputs := [⟨.ev3, [3]⟩] }, rfl, rfl⟩
theorem witness_StepWithoutInput :
    pairState.inputs = [] ∧ pairState.timerArmed = true ∧
      (idleState 3).inputs = [] ∧ (idleState 3).timerArmed = false := by decide
theorem witness_Sum8IsTheSumModulo256 : List.Perm [(1 : Byte), 255] [255, 1] := .swap _ _ _
theorem witness_VariableWindowChecksum :
    ([1, 2, 3] : List Byte).length < 4 ∧ 4 ≤ ([1, 2, 3, 4] : List Byte).length ∧
      ([1, 2, 3, 4] : List Byte).length = 4 := by decide
theorem witness_WindowsAgreeOnTenBytes : pmFrame.length = 10 := by decide
theorem witness_AddChecksumWritesOneByte :
    ([1, 2, 3] : List Byte).length < 4 ∧ 4 ≤ ([1, 2, 3, 4] : List Byte).length := by decide
theorem witness_RxEventOutcome :
    closedState.closed = true ∧ (idleState 3).closed = false ∧ validate [0xAA] = .malformed ∧
      validate [0xAA, 0xC0, 0, 0, 0, 0, 0, 0, 1, 0xAB] = .checksumMismatch ∧ validate pmFrame = .valid := by decide
theorem witness_RxRowsRunTheirFrame :
    decode ⟨.rx10, pmFrame⟩ = .ok (.rxPm 0x4B 0x00 0x51 0x00 0xA1 0x60) ∧ decode ⟨.rx10, []⟩ = .ok (.rxInvalid []) :=
  ⟨rfl, rfl⟩
theorem witness_PmFrameSetsReadings :
    ∃ s s' : State, s.closed = false ∧ (s.sensor.modeV = true ∧ s.sensor.mode = .active) ∧
      s'.closed = false ∧ ¬ (s'.sensor.modeV = true ∧ s'.sensor.mode = .active) :=
  ⟨{ idleState 3 with sensor := { Sensor.unset with modeV := true } }, idleState 3, by decide⟩
theorem witness_ModeFrameSetsMode : (idleState 3).closed = false := by decide
theorem witness_SleepFrameSetsSleeping : pairState.closed = false := by decide
theorem witness_FirmwareFrameSetsFirmware : (idleState 0).closed = false := by decide
theorem witness_PeriodFrameSetsPeriod : (waitingState 3 1 .getPeriod 0).closed = false := by decide
theorem witness_UnknownFramesAreReported :
    (Instr.rxUnknownSetting 0x09 0 0 0 0 0).WF ∧ (Instr.rxUnknownType 0xC4 0 0 0 0 0 0).WF ∧
      (idleState 3).closed = false ∧ (idleState 3).cfg.onUnknown = .propagate ∧
      (ignoring (idleState 3)).closed = false ∧ (ignoring (idleState 3)).cfg.onUnknown = .ignore := by decide
theorem witness_InvalidFramesAreDiscarded :
    (Instr.rxInvalid []).WF ∧ (Instr.rxInvalid [0xAA, 0xC0, 0, 0, 0, 0, 0, 0, 1, 0xAB]).WF ∧
      (idleState 3).closed = false := by decide
theorem witness_IllegalWordsAreRefused : legal 0x071F = false ∧ legal 0x1000 = false := by decide
theorem witness_RequestChecksInOrder :
    legal 0x0202 = false ∧ legal 0x0201 = true ∧ closedState.closed = true ∧ fullState.closed = false ∧
      fullState.q.length = fullState.cfg.qdepth.toNat ∧ pairState.closed = false ∧
      pairState.q.length ≠ pairState.cfg.qdepth.toNat := by decide
theorem witness_RequestsRefusedClosedOrFull :
    requestOfInstr (.setSleep 1) = some (.setSleep, 1) ∧ (Instr.setSleep 1).WF ∧ closedState.closed = true ∧
      fullState.closed = false ∧ fullState.q.length = fullState.cfg.qdepth.toNat := by decide
theorem witness_RequestQueuesBehindTheHead :
    requestOfInstr (.setPeriod 30) = some (.setPeriod, 30) ∧ (Instr.setPeriod 30).WF ∧ pairState.closed = false ∧
      pairState.q ≠ [] ∧ pairState.q.length ≠ pairState.cfg.qdepth.toNat := by decide
theorem witness_RequestIntoEmptyQueueIsSent :
    requestOfInstr .queryPm = some (.queryPm, 0) ∧ Instr.queryPm.WF ∧ (idleState 1).closed = false ∧
      (idleState 1).q = [] ∧ (idleState 1).cnt = 0 ∧ 1 ≤ (idleState 1).cfg.qdepth.toNat ∧
      1 ≤ (idleState 1).cfg.allowedRetries.toNat := by decide
theorem witness_RequestWithoutBudgetFailsAtOnce :
    requestOfInstr .getFirmware = some (.getFirmware, 0) ∧ Instr.getFirmware.WF ∧ (idleState 0).closed = false ∧
      (idleState 0).q = [] ∧ (idleState 0).cnt = 0 ∧ 1 ≤ (idleState 0).cfg.qdepth.toNat ∧
      (idleState 0).cfg.allowedRetries = 0 := by decide
theorem witness_ReqWordRunsItsRow :
    decode ⟨.req16, [0x1E, 0x07]⟩ = .ok (.setPeriod 30) ∧ decode ⟨.req16, [0x1F, 0x07]⟩ = .ok (.reqIllegal 0x071F) :=
  ⟨rfl, rfl⟩
theorem witness_TickEnabledExactlyWhileArmed : closedState.timerArmed = false ∧ Inv pairState :=
  ⟨by decide, inv_pairState⟩
theorem witness_TickRetriesTheHead :
    pairState.timerArmed = true ∧ pairState.q = ⟨0, true, .queryPm, 0⟩ :: [⟨1, false, .setPeriod, 30⟩] ∧
      1 ≤ pairState.cnt.toNat ∧ pairState.cnt.toNat + 1 ≤ pairState.cfg.allowedRetries.toNat ∧
      fieldValid .queryPm pairState.sensor = false := by decide
theorem witness_TickCompletesTheHead :
    ∃ s s' : State, s.timerArmed = true ∧ 1 ≤ s.cnt.toNat ∧ s.cnt.toNat + 1 ≤ s.cfg.allowedRetries.toNat ∧
      fieldValid .getMode s.sensor = true ∧ s.q = [⟨1, false, .getMode, 0⟩] ∧
      s'.timerArmed = true ∧ 1 ≤ s'.cnt.toNat ∧ s'.cnt.toNat + 1 ≤ s'.cfg.allowedRetries.toNat ∧
      fieldValid .queryPm s'.sensor = true ∧ s'.q = ⟨0, true, .queryPm, 0⟩ :: ⟨1, false, .setPeriod, 30⟩ :: [] :=
  ⟨{ waitingState 2 1 .getMode 0 with sensor := { Sensor.unset with modeV := true } },
    { pairState with sensor := { Sensor.unset with pmV := true } }, by decide⟩
theorem witness_TickExhaustsTheHead :
    ∃ s s' : State, s.timerArmed = true ∧ 1 ≤ s.cfg.allowedRetries.toNat ∧
      s.cfg.allowedRetries.toNat ≤ s.cnt.toNat ∧ s.cnt.toNat ≤ 254 ∧ s.q = [⟨1, false, .getMode, 0⟩] ∧
      s'.timerArmed = true ∧ 1 ≤ s'.cfg.allowedRetries.toNat ∧ s'.cfg.allowedRetries.toNat ≤ s'.cnt.toNat ∧
      s'.cnt.toNat ≤ 254 ∧ s'.q = ⟨0, true, .queryPm, 0⟩ :: ⟨1, false, .setPeriod, 30⟩ :: [] :=
  ⟨waitingState 254 254 .getMode 0, { pairState with cnt := 3 }, by decide⟩
theorem witness_UnansweredCommandRun :
    requestOfInstr (.setMode 1) = some (.setMode, 1) ∧ (Instr.setMode 1).WF ∧ (idleState 3).closed = false ∧
      (idleState 3).q = [] ∧ (idleState 3).cnt = 0 ∧ (idleState 3).timerArmed = false ∧ (idleState 3).inputs = [] ∧
      (idleState 3).cfg.WF := by decide
/-- Both clauses: the response after the only TX that counts, and after the last. -/
theorem witness_AnsweredCommandRun :
    requestOfInstr .getMode = some (.getMode, 0) ∧ Instr.getMode.WF ∧ answers .getMode (.rxMode 0 1 0 0xA1 0x60) = true ∧
      ∃ s s' : State, s.closed = false ∧ s.q = [] ∧ s.cnt = 0 ∧ s.cfg.WF ∧ 1 ≤ s.cfg.allowedRetries.toNat ∧
        1 < s.cfg.allowedRetries.toNat ∧
        s.inputs = List.replicate (1 - 1) (encode .tick) ++ [encode (.rxMode 0 1 0 0xA1 0x60), encode .tick] ∧
        s'.closed = false ∧ s'.q = [] ∧ s'.cnt = 0 ∧ s'.cfg.WF ∧ s'.cfg.allowedRetries.toNat = 2 ∧
        s'.inputs = List.replicate (2 - 1) (encode .tick) ++ [encode (.rxMode 0 1 0 0xA1 0x60), encode .tick] :=
  ⟨rfl, rfl, rfl, { idleState 2 with inputs := [encode (.rxMode 0 1 0 0xA1 0x60), encode .tick] },
    { idleState 2 with inputs := [encode .tick, encode (.rxMode 0 1 0 0xA1 0x60), encode .tick] }, by decide⟩
theorem witness_CloseEvent :
    closedState.closed = true ∧ pairState.closed = false ∧ pairState.cfg.closePolicy = .failPending ∧
      ∃ s : State, s.closed = false ∧ s.cfg.closePolicy = .abandon :=
  ⟨rfl, rfl, rfl, { pairState with cfg := { Config.standard with closePolicy := .abandon } }, rfl, rfl⟩
theorem witness_AfterClose :
    closedState.closed = true ∧ Inv closedState ∧ legal 0x0100 = true ∧ isReceive (.rx pmFrame) = true ∧
      Instr.close ≠ .reset ∧ exec .close closedState = .next closedState :=
  ⟨rfl, inv_closedState, by decide, rfl, by decide, rfl⟩
theorem witness_RdAnswersAndChangesNothing : 8 ≤ (0x08 : Byte).toNat ∧ 8 ≤ (0xFF : Byte).toNat := by decide
theorem witness_HostRegisterMap :
    (idleState 3).q = [] ∧ pairState.q = ⟨0, true, .queryPm, 0⟩ :: [⟨1, false, .setPeriod, 30⟩] := by decide
theorem witness_ResetEvent :
    1 ≤ (idleState 1).cfg.allowedRetries.toNat ∧ (idleState 1).cfg.bootKind = .queryPm ∧
      (idleState 0).cfg.allowedRetries = 0 := by decide
theorem witness_ResetEventEstablishesInvariant :
    (idleState 254).cfg.WF ∧ ∃ t : State, exec .reset (idleState 254) = .next t := ⟨by decide, _, rfl⟩
theorem witness_StepKeepsInvariant : Inv pairState ∧ ∃ t : State, step pairState = .next t :=
  ⟨inv_pairState, _, rfl⟩
theorem witness_StepKeepsUnsetFieldsZero :
    (idleState 3).sensor.Cleared ∧ ∃ t : State, step ((idleState 3).withFetchWord 16 0x0100) = .next t :=
  ⟨Sensor.unset_cleared, _, rfl⟩
theorem witness_QueuedHandlesDistinct : Inv pairState ∧ pairState.q.length = 2 := ⟨inv_pairState, rfl⟩
theorem witness_ExactlyOneEngineState : Inv pairState ∧ Inv closedState ∧ Inv (idleState 0) :=
  ⟨inv_pairState, inv_closedState, inv_noBudget⟩
theorem witness_ParametersNeverChange : ∃ t : State, exec .reset pairState = .next t := ⟨_, rfl⟩
theorem witness_ClosedFlagWriters :
    (∃ t : State, exec .close pairState = .next t) ∧ (∃ t : State, exec .reset closedState = .next t) ∧
      Instr.tick ≠ .close ∧ Instr.tick ≠ .reset ∧ ∃ t : State, exec .tick pairState = .next t :=
  ⟨⟨_, rfl⟩, ⟨_, rfl⟩, by decide, by decide, _, rfl⟩
theorem witness_StickyFlagWriters :
    (∃ t : State, exec .reset pairState = .next t) ∧ Instr.rxUnknownType 0xC4 0 0 0 0 0 0 ≠ .reset ∧
      ∃ t : State, exec (.rxUnknownType 0xC4 0 0 0 0 0 0) pairState = .next t :=
  ⟨⟨_, rfl⟩, by decide, _, rfl⟩
theorem witness_LastRxWriters :
    (isReceive (.rx []) = true ∧ ∃ t : State, exec (.rx []) closedState = .next t) ∧
      (∃ t : State, exec .reset pairState = .next t) ∧
      isReceive .close = false ∧ Instr.close ≠ .reset ∧ ∃ t : State, exec .close pairState = .next t :=
  ⟨⟨rfl, _, rfl⟩, ⟨_, rfl⟩, rfl, by decide, _, rfl⟩
theorem witness_ValidBitWriters :
    ∃ s t u : State, isReceive .close = false ∧ exec .close s = .next t ∧ fieldValid .queryPm t.sensor = true ∧
      isReceive (.rx []) = true ∧ exec (.rx []) s = .next u ∧ fieldValid .queryPm s.sensor = true :=
  ⟨{ pairState with sensor := { Sensor.unset with pmV := true } }, _, _, rfl, rfl, rfl, rfl, rfl, rfl⟩
theorem witness_CommandsCompleteInOrder :
    Instr.close ≠ .reset ∧ (Instr.close = .close → pairState.cfg.closePolicy = .failPending) ∧
      ∃ t : State, exec .close pairState = .next t := ⟨by decide, fun _ => rfl, _, rfl⟩
theorem witness_EveryCommandCompletes : Inv pairState ∧ pairState.inputs = [] := ⟨inv_pairState, rfl⟩
theorem witness_SmallBudgetsNeverSucceed :
    Inv (waitingState 1 1 .getMode 0) ∧ (waitingState 1 1 .getMode 0).cfg.allowedRetries.toNat ≤ 1 ∧
      (∃ t : State, exec .tick (waitingState 1 1 .getMode 0) = .next t) ∧
      Inv (idleState 0) ∧ (idleState 0).cfg.allowedRetries = 0 ∧ ∃ t : State, exec .getMode (idleState 0) = .next t :=
  ⟨inv_oneAttempt, by decide, ⟨_, rfl⟩, inv_noBudget, rfl, _, rfl⟩
theorem witness_EveryEventCompletes :
    Inv pairState ∧ (Instr.tick = .tick → pairState.timerArmed = true) := ⟨inv_pairState, fun _ => rfl⟩

end Sys2Proof.Tests
end

section
/-! The facts the statements of spec/10_state.md cite: what an accepted request does before its attempt, what the
events that are neither RX nor RESET do to the elements that RX writes, the invariant of R37 event by event, the run of
queued handles, and the fields of a word of the host register port. -/

namespace Sys2Proof.Machine

/-! An accepted request. -/

/-- R181: the entry is queued and the handle advances, before the answer is given. -/
def enqueue (k : Kind) (a : Byte) (s : State) : State :=
  { s with nextHandle := succHandle s.nextHandle, q := s.q ++ [⟨s.nextHandle, false, k, a⟩] }

theorem accept_of_empty (k : Kind) (a : Byte) {s : State} (hq : s.q = []) :
    accept k a s = attempt (respond .accepted s.nextHandle (enqueue k a s)) := by
  simp [accept, enqueue, hq]

theorem accept_of_ne_nil (k : Kind) (a : Byte) {s : State} (hq : s.q ≠ []) :
    accept k a s = respond .accepted s.nextHandle (enqueue k a s) := by
  simp [accept, enqueue, hq]

/-! The closed flag. -/

@[simp] theorem accept_closed (k : Kind) (a : Byte) (s : State) : (accept k a s).closed = s.closed := by
  by_cases hq : s.q = []
  · simp [accept_of_empty k a hq, attempt, enqueue]
  · simp [accept_of_ne_nil k a hq, enqueue]

@[simp] theorem closeConnection_closed (s : State) : (closeConnection s).closed = true := by
  unfold closeConnection
  split
  · assumption
  · rfl

@[simp] theorem resetAll_closed (s : State) : (resetAll s).closed = false := by
  simp [resetAll, attempt]

/-! The elements that RX writes. -/

/-- What the events that are neither RX nor RESET do to the elements that RX writes: `last_rx` and `unk_sticky` stay,
no valid bit is set, and a cleared field stays cleared. -/
structure NoRxEffect (s t : State) : Prop where
  lastRx : t.lastRx = s.lastRx
  unkSticky : t.unkSticky = s.unkSticky
  valid : ∀ k, fieldValid k t.sensor = true → fieldValid k s.sensor = true
  cleared : s.sensor.Cleared → t.sensor.Cleared

theorem NoRxEffect.of_eq {s t : State} (hl : t.lastRx = s.lastRx) (hu : t.unkSticky = s.unkSticky)
    (hx : t.sensor = s.sensor) : NoRxEffect s t :=
  ⟨hl, hu, fun _ h => hx ▸ h, fun h => hx ▸ h⟩

theorem NoRxEffect.trans {s t u : State} (h : NoRxEffect s t) (h' : NoRxEffect t u) : NoRxEffect s u :=
  ⟨h'.lastRx.trans h.lastRx, h'.unkSticky.trans h.unkSticky, fun k hk => h.valid k (h'.valid k hk),
    fun hs => h'.cleared (h.cleared hs)⟩

theorem attempt_noRxEffect (s : State) : NoRxEffect s (attempt s) :=
  ⟨attemptFrom_lastRx _ _, attemptFrom_unkSticky _ _, fun _ => fieldValid_of_attemptFrom, attemptFrom_cleared _⟩

theorem accept_noRxEffect (k : Kind) (a : Byte) (s : State) : NoRxEffect s (accept k a s) := by
  have queued : NoRxEffect s (respond .accepted s.nextHandle (enqueue k a s)) := .of_eq rfl rfl rfl
  by_cases hq : s.q = []
  · rw [accept_of_empty k a hq]
    exact queued.trans (attempt_noRxEffect _)
  · rw [accept_of_ne_nil k a hq]
    exact queued

theorem closeConnection_noRxEffect (s : State) : NoRxEffect s (closeConnection s) := by
  unfold closeConnection
  split <;> exact .of_eq rfl rfl rfl

@[simp] theorem fieldValid_unset (k : Kind) : fieldValid k Sensor.unset = false := by
  cases k <;> rfl

@[simp] theorem resetAll_lastRx (s : State) : (resetAll s).lastRx = .noFrame := attemptFrom_lastRx _ _

@[simp] theorem resetAll_unkSticky (s : State) : (resetAll s).unkSticky = false := attemptFrom_unkSticky _ _

/-- The bootstrap's attempt sets no field, so none is valid after RESET. -/
@[simp] theorem fieldValid_resetAll (k : Kind) (s : State) : fieldValid k (resetAll s).sensor = false := by
  rw [← Bool.not_eq_true]
  intro h
  have hu : fieldValid k Sensor.unset = true := fieldValid_of_attemptFrom h
  simp at hu

theorem resetAll_cleared (s : State) : (resetAll s).sensor.Cleared := attemptFrom_cleared _ Sensor.unset_cleared

/-- Every event is an RX event, RESET, or one that leaves the elements of RX as `NoRxEffect` says. -/
theorem exec_rx_cases {i : Instr} {s t : State} (h : exec i s = .next t) :
    (isReceive i = true ∧ i ≠ .reset ∧ ReceiveEffect s t) ∨
    (isReceive i = false ∧ i = .reset ∧ t = resetAll s) ∨
    (isReceive i = false ∧ i ≠ .reset ∧ NoRxEffect s t) := by
  rcases exec_cases h with ⟨hr, he⟩ | ⟨hi, st, n, rfl⟩ | ⟨hi, k, a, -, -, -, rfl⟩ | ⟨rfl, rfl⟩ | ⟨rfl, rfl⟩ |
    ⟨rfl, -, -, rfl⟩ | ⟨n, rfl, rfl⟩
  · have hi : i ≠ .reset := by rintro rfl; cases hr
    exact .inl ⟨hr, hi, he⟩
  · exact .inr (.inr ⟨hi.1, hi.2.1, .of_eq rfl rfl rfl⟩)
  · exact .inr (.inr ⟨hi.1, hi.2.1, accept_noRxEffect k a s⟩)
  · exact .inr (.inl ⟨rfl, rfl, rfl⟩)
  · exact .inr (.inr ⟨rfl, by simp, closeConnection_noRxEffect s⟩)
  · have disarm : NoRxEffect s { s with timerArmed := false } := .of_eq rfl rfl rfl
    exact .inr (.inr ⟨rfl, by simp, disarm.trans (attempt_noRxEffect _)⟩)
  · exact .inr (.inr ⟨rfl, by simp, .of_eq rfl rfl rfl⟩)

/-- R22: every event keeps the value parts of unset fields at 0. -/
theorem exec_cleared {i : Instr} {s t : State} (h : exec i s = .next t) (hs : s.sensor.Cleared) :
    t.sensor.Cleared := by
  rcases exec_rx_cases h with ⟨-, -, he⟩ | ⟨-, -, rfl⟩ | ⟨-, -, he⟩
  · exact he.cleared hs
  · exact resetAll_cleared s
  · exact he.cleared hs

/-! The invariant of R37, event by event. -/

/-- The invariant speaks of the parameters and of six elements only. -/
theorem Inv.of_eq {s t : State} (h : Inv s) (hcfg : t.cfg = s.cfg) (hq : t.q = s.q) (hcnt : t.cnt = s.cnt)
    (ht : t.timerArmed = s.timerArmed) (hn : t.nextHandle = s.nextHandle) (hc : t.closed = s.closed) : Inv t := by
  obtain ⟨h1, h2, h3, h4, h5, h6, h7, h8, h9, h10⟩ := h
  constructor <;> simp only [hcfg, hq, hcnt, ht, hn, hc] <;> assumption

theorem ReceiveEffect.inv {s t : State} (he : ReceiveEffect s t) (h : Inv s) : Inv t :=
  h.of_eq he.cfg he.q he.cnt he.timerArmed he.nextHandle he.closed

/-- R190: with its timer disarmed, a state of R37 is ready for the attempt of its head. -/
theorem Inv.ready_disarmed {s : State} (h : Inv s) (hq : s.q ≠ []) : Ready s.q { s with timerArmed := false } where
  queue := rfl
  params := h.params
  bounded := h.bounded
  disarmed := rfl
  idle := h.idle
  counted := (h.counting hq).2
  opened _ := by
    rw [← Bool.not_eq_true]
    exact fun hc => hq (h.shut hc)
  shut := h.shut
  handles := h.handles
  nextHandle := h.nextHandle
  boot := h.boot
  args := h.args

/-- R33: a handle that is handed out is not the bootstrap's. -/
theorem boot_enqueue (k : Kind) (a : Byte) {s : State} (h : Inv s) :
    ∀ e ∈ (enqueue k a s).q, (e.boot = true ↔ e.handle = 0) := by
  intro e he
  rcases List.mem_append.1 he with he | he
  · exact h.boot e he
  · obtain rfl := List.mem_singleton.1 he
    simpa using h.nextHandle

theorem args_enqueue {k : Kind} {a : Byte} (ha : argLegal k a = true) {s : State} (h : Inv s) :
    ∀ e ∈ (enqueue k a s).q, argLegal e.kind e.arg = true := by
  intro e he
  rcases List.mem_append.1 he with he | he
  · exact h.args e he
  · obtain rfl := List.mem_singleton.1 he
    exact ha

theorem length_enqueue_le (k : Kind) (a : Byte) {s : State} (h : Inv s) (hl : s.q.length ≠ s.cfg.qdepth.toNat) :
    (enqueue k a s).q.length ≤ s.cfg.qdepth.toNat := by
  have hb := h.bounded
  simp only [enqueue, List.length_append, List.length_singleton]
  omega

/-- R181 behind a head in flight. -/
theorem inv_enqueue_of_ne_nil {k : Kind} {a : Byte} (ha : argLegal k a = true) {s : State} (h : Inv s)
    (hc : s.closed = false) (hl : s.q.length ≠ s.cfg.qdepth.toNat) (hq : s.q ≠ []) : Inv (enqueue k a s) where
  params := h.params
  bounded := length_enqueue_le k a h hl
  timer := by simpa [enqueue] using h.timer.1 hq
  idle he := by simp [enqueue] at he
  counting _ := h.counting hq
  shut he := by simp [enqueue, hc] at he
  handles := h.handles.push _ _ _
  nextHandle := succHandle_ne_zero _
  boot := boot_enqueue k a h
  args := args_enqueue ha h

/-- R181 into an empty queue: what is queued is ready for its first attempt. -/
theorem ready_enqueue_of_empty {k : Kind} {a : Byte} (ha : argLegal k a = true) {s : State} (h : Inv s)
    (hc : s.closed = false) (hl : s.q.length ≠ s.cfg.qdepth.toNat) (hq : s.q = []) :
    Ready (enqueue k a s).q (respond .accepted s.nextHandle (enqueue k a s)) where
  queue := rfl
  params := h.params
  bounded := length_enqueue_le k a h hl
  disarmed := by
    rw [← Bool.not_eq_true]
    exact fun ht => h.timer.2 ht hq
  idle _ := h.idle hq
  counted := by simp [enqueue, h.idle hq]
  opened _ := hc
  shut he := by simp [enqueue, hc] at he
  handles := h.handles.push _ _ _
  nextHandle := succHandle_ne_zero _
  boot := boot_enqueue k a h
  args := args_enqueue ha h

theorem accept_inv {k : Kind} {a : Byte} (ha : argLegal k a = true) {s : State} (h : Inv s)
    (hc : s.closed = false) (hl : s.q.length ≠ s.cfg.qdepth.toNat) : Inv (accept k a s) := by
  by_cases hq : s.q = []
  · rw [accept_of_empty k a hq]
    exact attemptFrom_inv (ready_enqueue_of_empty ha h hc hl hq)
  · rw [accept_of_ne_nil k a hq]
    exact (inv_enqueue_of_ne_nil ha h hc hl hq).of_eq rfl rfl rfl rfl rfl rfl

theorem closeConnection_inv {s : State} (h : Inv s) : Inv (closeConnection s) := by
  unfold closeConnection
  split
  · exact h
  · exact
      { params := h.params
        bounded := by simp
        timer := by simp
        idle := fun _ => rfl
        counting := fun hq => absurd rfl hq
        shut := fun _ => rfl
        handles := trivial
        nextHandle := h.nextHandle
        boot := by simp
        args := by simp }

/-- R83: 0 is a legal argument of every kind, so the bootstrap's is. -/
theorem argLegal_zero (k : Kind) : argLegal k 0 = true := by
  cases k <;> rfl

/-- R270, R272: the bootstrap command is ready for its first attempt, whatever the state before. -/
theorem ready_resetElements {s : State} (hs : s.cfg.WF) :
    Ready [bootEntry s.cfg] { resetElements s with q := [bootEntry s.cfg] } where
  queue := rfl
  params := hs
  bounded := hs.2.2
  disarmed := rfl
  idle hq := by simp at hq
  counted := by simp
  opened _ := rfl
  shut hc := by simp at hc
  handles := rfl
  nextHandle := by simp
  boot := by simp [bootEntry]
  args := by simpa [bootEntry] using argLegal_zero s.cfg.bootKind

theorem resetAll_inv {s : State} (hs : s.cfg.WF) : Inv (resetAll s) :=
  attemptFrom_inv (ready_resetElements hs)

/-- R37: every event keeps the invariant. -/
theorem exec_inv {i : Instr} {s t : State} (h : Inv s) (he : exec i s = .next t) : Inv t := by
  rcases exec_cases he with ⟨-, hr⟩ | ⟨-, st, n, rfl⟩ | ⟨-, k, a, ha, hc, hl, rfl⟩ | ⟨-, rfl⟩ | ⟨-, rfl⟩ |
    ⟨-, -, hq, rfl⟩ | ⟨n, -, rfl⟩
  · exact hr.inv h
  · exact h.of_eq rfl rfl rfl rfl rfl rfl
  · exact accept_inv ha h hc hl
  · exact resetAll_inv h.params
  · exact closeConnection_inv h
  · exact attemptFrom_inv (h.ready_disarmed hq)
  · exact h.of_eq rfl rfl rfl rfl rfl rfl

/-! The run of queued handles. Modulo 255 the handle after `h` is `h + 1` in every case: 0 of the bootstrap is followed
by 1, and so is 255. -/

theorem succHandle_mod (h : Byte) : (succHandle h).toNat % 255 = (h.toNat + 1) % 255 := by
  have hlt := h.isLt
  rw [succHandle_eq]
  split
  · simp_all
  · rw [add_one_toNat (by omega)]

/-- The handle `i` places behind the head of a run. -/
theorem HandleRun.getElem_mod {e : Entry} {rest : List Entry} {n : Byte} (h : HandleRun (e :: rest) n) (i : Nat)
    (hi : i < (e :: rest).length) : (e :: rest)[i].handle.toNat % 255 = (e.handle.toNat + i) % 255 := by
  induction rest generalizing e i with
  | nil =>
    obtain rfl : i = 0 := by simpa using hi
    rfl
  | cons e' rest ih =>
    cases i with
    | zero => rfl
    | succ i =>
      have hs := succHandle_mod e.handle
      rw [← h.1] at hs
      have hr := ih h.2 i (by simpa using hi)
      rw [List.getElem_cons_succ, hr]
      omega

/-- R185: a run of at most 255 handles has no repeats. -/
theorem HandleRun.nodup {q : List Entry} {n : Byte} (h : HandleRun q n) (hl : q.length ≤ 255) :
    (q.map Entry.handle).Nodup := by
  cases q with
  | nil => exact List.nodup_nil
  | cons e rest =>
    rw [List.nodup_iff_pairwise_ne, List.pairwise_map, List.pairwise_iff_getElem]
    intro i j hi hj hij heq
    have hmi := h.getElem_mod i hi
    have hmj := h.getElem_mod j hj
    rw [heq] at hmi
    omega

/-! The host register port: a field of a word is read back where it was placed and nowhere else. -/

theorem getLsbD_place {n : Nat} (lo : Nat) (v : BitVec n) (i : Nat) :
    (place lo v).getLsbD i = (decide (lo ≤ i ∧ i < 32) && v.getLsbD (i - lo)) := by
  by_cases h : lo ≤ i <;> by_cases h' : i < 32 <;> simp [place, h, h']

@[simp] theorem extractLsb'_place_self {n lo : Nat} (v : BitVec n) (h : lo + n ≤ 32) :
    (place lo v).extractLsb' lo n = v := by
  apply BitVec.eq_of_getLsbD_eq
  intro i hi
  have hlt : lo + i < 32 := by omega
  rw [BitVec.getLsbD_extractLsb', getLsbD_place]
  simp [hi, hlt]

/-- A field below the placed value. -/
@[simp] theorem extractLsb'_place_below {n lo a m : Nat} (v : BitVec n) (h : a + m ≤ lo) :
    (place lo v).extractLsb' a m = 0 := by
  apply BitVec.eq_of_getLsbD_eq
  intro i hi
  have hlt : ¬ lo ≤ a + i := by omega
  simp [getLsbD_place, hlt]

/-- A field above the placed value. -/
@[simp] theorem extractLsb'_place_above {n lo a m : Nat} (v : BitVec n) (h : lo + n ≤ a) :
    (place lo v).extractLsb' a m = 0 := by
  apply BitVec.eq_of_getLsbD_eq
  intro i hi
  have hle : n ≤ a + i - lo := by omega
  simp [getLsbD_place, BitVec.getLsbD_of_ge v _ hle]

theorem headWord_cons {s : State} {e : Entry} {rest : List Entry} (h : s.q = e :: rest) :
    headWord s =
      place 0 e.handle ||| place 8 (kindCode e.kind) ||| place 12 (BitVec.ofBool e.boot) ||| place 16 1#1 := by
  simp [headWord, h]

/-- R241 as a table of numbers. -/
theorem rxStatusCode_eq (r : RxStatus) :
    rxStatusCode r =
      if r = .noFrame then 0 else if r = .okPm then 1 else if r = .okSetting then 2 else if r = .malformed then 3
      else if r = .checksumMismatch then 4 else if r = .unknownSetting then 5 else if r = .unknownFrameType then 6
      else 7 := by
  cases r <;> rfl

/-- R82 as a table of numbers. -/
theorem kindCode_eq (k : Kind) :
    kindCode k =
      if k = .queryPm then 0x0 else if k = .getMode then 0x1 else if k = .setMode then 0x2
      else if k = .getSleep then 0x3 else if k = .setSleep then 0x4 else if k = .getFirmware then 0x5
      else if k = .getPeriod then 0x6 else 0x7 := by
  cases k <;> rfl

theorem onUnknownBit_eq (p : OnUnknown) : onUnknownBit p = if p = .propagate then 0 else 1 := by
  cases p <;> rfl

theorem closePolicyBit_eq (p : ClosePolicy) : closePolicyBit p = if p = .failPending then 0 else 1 := by
  cases p <;> rfl

theorem modeBit_eq (m : Mode) : modeBit m = if m = .active then 0 else 1 := by
  cases m <;> rfl

theorem ofBool_not_isEmpty (q : List Entry) : BitVec.ofBool (!q.isEmpty) = if q = [] then 0 else 1 := by
  cases q <;> rfl

end Sys2Proof.Machine
end

section
/-! The statements of spec/10_state.md, settled. -/

namespace Sys2Proof.Machine

/-- Settles O47: a step is idle or one event, and every event keeps the invariant. -/
theorem stepKeepsInvariant : Obligations.StepKeepsInvariant := by
  intro s t hs h
  rcases step_cases h with rfl | ⟨i, l, he⟩
  · exact hs
  · have hs' : Inv { s with inputs := l } := hs.of_eq rfl rfl rfl rfl rfl rfl
    exact exec_inv hs' he

/-- Settles O46: RESET starts an attempt from a ready state. -/
theorem resetEventEstablishesInvariant : Obligations.ResetEventEstablishesInvariant := by
  intro s t hs h
  cases h
  exact resetAll_inv hs

/-- Settles O45: the state after reset is what RESET leaves of a state with nothing put out. -/
theorem resetStateMeetsInvariant : Obligations.ResetStateMeetsInvariant := by
  have h : exec .reset { State.reset with out := [] } = .next State.reset := by rfl
  exact resetEventEstablishesInvariant _ _ (by decide) h

/-- Settles O48: a step is idle or one event, and every event keeps cleared fields cleared. -/
theorem stepKeepsUnsetFieldsZero : Obligations.StepKeepsUnsetFieldsZero := by
  intro s t hs h
  rcases step_cases h with rfl | ⟨i, l, he⟩
  · exact hs
  · exact exec_cleared he hs

/-- Settles O49: the queue holds at most QDEPTH ≤ 255 handles, and they follow one another. -/
theorem queuedHandlesDistinct : Obligations.QueuedHandlesDistinct := by
  intro s hs
  have hd := s.cfg.qdepth.isLt
  have hb := hs.bounded
  exact hs.handles.nodup (by omega)

/-- Settles O50: closed or not, and if not, with an empty queue or not. -/
theorem exactlyOneEngineState : Obligations.ExactlyOneEngineState := by
  intro s hs
  refine ⟨?_, ?_, ?_, ?_⟩
  · by_cases hq : s.q = []
    · cases hc : s.closed with
      | false => exact .inl ⟨hc, hq⟩
      | true =>
        have ht : s.timerArmed = false := by
          rw [← Bool.not_eq_true]
          exact fun ht => hs.timer.2 ht hq
        exact .inr (.inr ⟨hc, hq, ht, hs.idle hq⟩)
    · exact .inr (.inl ⟨hq, hs.timer.1 hq, hs.counting hq⟩)
  · exact fun ⟨⟨_, hq⟩, ⟨hne, _⟩⟩ => hne hq
  · exact fun ⟨⟨hf, _⟩, ⟨ht, _⟩⟩ => by simp [hf] at ht
  · exact fun ⟨⟨hne, _⟩, ⟨_, hq, _⟩⟩ => hne hq

/-- Settles O52, over the cases of an event: only CLOSE and RESET assign the flag. -/
theorem closedFlagWriters : Obligations.ClosedFlagWriters := by
  intro i s t h
  rcases exec_cases h with ⟨hr, he⟩ | ⟨hi, st, n, rfl⟩ | ⟨hi, k, a, -, -, -, rfl⟩ | ⟨rfl, rfl⟩ | ⟨rfl, rfl⟩ |
    ⟨rfl, -, -, rfl⟩ | ⟨n, rfl, rfl⟩
  · have hclose : i ≠ .close := by rintro rfl; cases hr
    have hreset : i ≠ .reset := by rintro rfl; cases hr
    simp [hclose, hreset, he.closed]
  · simp [hi.2.1, hi.2.2.1]
  · simp [hi.2.1, hi.2.2.1]
  · simp
  · simp
  · simp [attempt]
  · simp

/-- Settles O53: an RX event sets the flag as its effect says, RESET clears it, and no other event writes it. -/
theorem stickyFlagWriters : Obligations.StickyFlagWriters := by
  intro i s t h
  rcases exec_rx_cases h with ⟨hr, hi, he⟩ | ⟨-, hi, rfl⟩ | ⟨hr, hi, he⟩
  · simpa [hr, hi] using he.sticky
  · simp [hi]
  · simp [hr, hi, he.unkSticky]

/-- Settles O54: an RX event leaves a code of at least 1, RESET leaves 0, and no other event writes `last_rx`. -/
theorem lastRxWriters : Obligations.LastRxWriters := by
  intro i s t h
  rcases exec_rx_cases h with ⟨hr, hi, he⟩ | ⟨hr, rfl, rfl⟩ | ⟨hr, hi, he⟩
  · simpa [hr, hi] using he.code
  · simp [hr, rxStatusCode]
  · simp [hr, hi, he.lastRx]

/-- Settles O55: an RX event clears no valid bit, and neither RESET nor any other event sets one. -/
theorem validBitWriters : Obligations.ValidBitWriters := by
  intro i k s t h
  rcases exec_rx_cases h with ⟨hr, -, he⟩ | ⟨hr, -, rfl⟩ | ⟨hr, -, he⟩
  · simpa [hr] using he.valid k
  · simp [hr]
  · simpa [hr] using he.valid k

/-- Settles O42: each field of a word is read off the values placed in it, and the values are the codes of R82 and
R241. -/
theorem hostRegisterMap : Obligations.HostRegisterMap := by
  intro s lastRxCode code
  have hlast : lastRxCode = rxStatusCode s.lastRx := (rxStatusCode_eq _).symm
  have hcode (k : Kind) : code k = kindCode k := (kindCode_eq k).symm
  rw [hlast]
  refine ⟨?_, ?_, ?_, ?_, ?_, ?_, ?_, ?_, ?_⟩
  · simp [regRead, statusWord, BitVec.extractLsb'_or, ofBool_not_isEmpty]
  · simp [regRead, configWord, BitVec.extractLsb'_or, hcode, onUnknownBit_eq, closePolicyBit_eq]
  · simp [regRead, pmWord, BitVec.extractLsb'_or]
  · simp [regRead, validWord, BitVec.extractLsb'_or]
  · simp [regRead, modeSleepWord, BitVec.extractLsb'_or, modeBit_eq]
  · simp [regRead, firmwareWord, BitVec.extractLsb'_or]
  · simp [regRead, periodWord]
  · intro hq
    simp [regRead, headWord, hq]
  · intro e rest hq
    simp [regRead, headWord_cons hq, BitVec.extractLsb'_or, hcode]

end Sys2Proof.Machine
end

section
/-! The fetch and run of a step (spec/20_memory.md R67, R69). -/

namespace Sys2Proof.Machine

/-- Settles O5: the law of a step with an input item, `step_input`. -/
theorem stepRunsDecodedEvent : Obligations.StepRunsDecodedEvent :=
  fun _ _ _ _ => step_input

end Sys2Proof.Machine
end

section
/-! The facts the statements of spec/30_encoding.md cite: the rows of request words, of frames and of events through the
decoder and back through the encoder, the RX event of a row, the numbers of the values placed in a word, and the
checksum of a built frame. -/

namespace Sys2Proof.Machine

/-! The rows whose operands are restricted. -/

theorem wf_reqIllegal {w : Half} : (Instr.reqIllegal w).WF ↔ legal w = false := by
  simp [Instr.WF, Instr.wellFormed]

theorem wf_rxUnknownSetting {id p3 p4 p5 p6 p7 : Byte} :
    (Instr.rxUnknownSetting id p3 p4 p5 p6 p7).WF ↔ id ≠ 0x02 ∧ id ≠ 0x06 ∧ id ≠ 0x07 ∧ id ≠ 0x08 := by
  simp [Instr.WF, Instr.wellFormed, and_assoc]

theorem wf_rxUnknownType {ty p2 p3 p4 p5 p6 p7 : Byte} :
    (Instr.rxUnknownType ty p2 p3 p4 p5 p6 p7).WF ↔ ty ≠ 0xC0 ∧ ty ≠ 0xC5 := by
  simp [Instr.WF, Instr.wellFormed]

theorem wf_rxInvalid {F : List Byte} : (Instr.rxInvalid F).WF ↔ F.length ≤ 255 ∧ validateInbound F = false := by
  simp [Instr.WF, Instr.wellFormed]

theorem wf_rx {F : List Byte} : (Instr.rx F).WF ↔ F.length ≤ 255 := by
  simp [Instr.WF, Instr.wellFormed]

/-! Request words, R81 to R83. -/

theorem requestOf_of_illegal {w : Half} (h : legal w = false) : requestOf w = none := by
  simpa [legal] using h

/-- R183: the row of an illegal word. -/
theorem instrOfWord_of_illegal {w : Half} (h : legal w = false) : instrOfWord w = .reqIllegal w := by
  simp [instrOfWord, requestOf_of_illegal h]

theorem decode_reqWord {k : Kind} {a : Byte} (h : argLegal k a = true) :
    decode (encodeWord (reqWord k a)) = .ok (instrOfRequest k a) := by
  rw [decode_encodeWord, instrOfWord_reqWord h]

/-- A kind without an argument has 0 in its word, so its row loses nothing. -/
theorem encode_instrOfRequest {k : Kind} {a : Byte} (h : argLegal k a = true) :
    (instrOfRequest k a).WF ∧ encode (instrOfRequest k a) = encodeWord (reqWord k a) := by
  cases k
  case setMode | setSleep | setPeriod => exact ⟨h, rfl⟩
  case queryPm | getMode | getSleep | getFirmware | getPeriod =>
    obtain rfl : a = 0 := by simpa [argLegal] using h
    exact ⟨rfl, rfl⟩

theorem encode_instrOfWord (w : Half) : (instrOfWord w).WF ∧ encode (instrOfWord w) = encodeWord w := by
  cases h : requestOf w with
  | none =>
    have hl : legal w = false := by simp [legal, h]
    rw [instrOfWord_of_illegal hl]
    exact ⟨wf_reqIllegal.2 hl, rfl⟩
  | some r =>
    obtain ⟨ha, rfl⟩ := requestOf_eq_some h
    rw [instrOfWord_reqWord ha]
    exact encode_instrOfRequest ha

/-- A 16-bit word of the opcode table is held low byte first (log entry 10). -/
theorem inputOfTableWord_half (w : Half) : inputOfTableWord 16 w.toNat = encodeWord w := by
  have hlo : BitVec.ofNat 8 w.toNat = loByte w := by
    apply BitVec.eq_of_toNat_eq
    simp [loByte_toNat]
  have hhi : BitVec.ofNat 8 (w.toNat / 256) = hiByte w := by
    apply BitVec.eq_of_toNat_eq
    have h := w.isLt
    simp only [hiByte_toNat, BitVec.toNat_ofNat]
    omega
  simp [inputOfTableWord, bytesOfNat, encodeWord, hlo, hhi]

theorem decodeTableWord_half (w : Half) : decodeTableWord 16 w.toNat = some (instrOfWord w) := by
  rw [decodeTableWord, inputOfTableWord_half, decode_encodeWord]

/-- R81: the number of a request word is its kind's code times 256 and its argument. -/
theorem decodeTableWord_request (k : Kind) (a : Byte) (h : argLegal k a = true) :
    decodeTableWord 16 ((kindCode k).toNat * 256 + a.toNat) = some (instrOfRequest k a) := by
  rw [← reqWord_toNat, decodeTableWord_half, instrOfWord_reqWord h]

theorem requestWord_of_illegal {w : Half} (h : legal w = false) (s : State) :
    requestWord w s = respond .invalidArgument 0 s := by
  simp [requestWord, requestOf_of_illegal h]

/-! Frames, R86, R87, R150. -/

theorem instrOfPayload_unknownSetting {id : Byte} (h2 : id ≠ 0x02) (h6 : id ≠ 0x06) (h7 : id ≠ 0x07) (h8 : id ≠ 0x08)
    (p3 p4 p5 p6 p7 : Byte) : instrOfPayload 0xC5 id p3 p4 p5 p6 p7 = .rxUnknownSetting id p3 p4 p5 p6 p7 := by
  rw [instrOfPayload, if_neg (by decide), if_pos rfl, if_neg h2, if_neg h6, if_neg h7, if_neg h8]

theorem instrOfPayload_unknownType {ty : Byte} (h0 : ty ≠ 0xC0) (h5 : ty ≠ 0xC5) (p2 p3 p4 p5 p6 p7 : Byte) :
    instrOfPayload ty p2 p3 p4 p5 p6 p7 = .rxUnknownType ty p2 p3 p4 p5 p6 p7 := by
  rw [instrOfPayload, if_neg h0, if_neg h5]

theorem instrOfFrame_of_invalid {F : List Byte} (h : validateInbound F = false) : instrOfFrame F = .rxInvalid F := by
  simp [instrOfFrame, h]

theorem decode_frame {F : List Byte} (h : F.length ≤ 255) : decode ⟨.rx10, F⟩ = .ok (instrOfFrame F) :=
  if_pos h

theorem encode_instrOfFrame {F : List Byte} (h : F.length ≤ 255) :
    (instrOfFrame F).WF ∧ encode (instrOfFrame F) = ⟨.rx10, F⟩ := by
  cases hv : validateInbound F with
  | false =>
    rw [instrOfFrame_of_invalid hv]
    exact ⟨wf_rxInvalid.2 ⟨h, hv⟩, rfl⟩
  | true =>
    rw [frame_of_valid hv, instrOfFrame_frameOf]
    exact encode_instrOfPayload ..

theorem receiveFrame_of_valid {F : List Byte} (h : validateInbound F = true) (s : State) :
    receiveFrame F s = receive (dispatch F) s := by
  have hv : validate F = .valid := by simpa [validateInbound] using h
  simp [receiveFrame, hv]

/-- R150: the tests on type and setting id that select a row are those that select its decoder. -/
theorem exec_instrOfPayload (F : List Byte) (s : State) :
    exec (instrOfPayload (byteAt F 1) (byteAt F 2) (byteAt F 3) (byteAt F 4) (byteAt F 5) (byteAt F 6) (byteAt F 7)) s =
      .next (receive (dispatch F) s) := by
  unfold instrOfPayload
  split_ifs with h0 h5 h2 h6 h7 h8
  · simp [exec, execRxPm, receive, dispatch, h0]
  · simp [exec, execRxMode, receive, dispatch, h5, h2]
  · simp [exec, execRxSleep, receive, dispatch, h5, h6]
  · simp [exec, execRxFirmware, receive, dispatch, h5, h7]
  · simp [exec, execRxPeriod, receive, dispatch, h5, h8]
  · simp only [exec, execRxUnknownSetting, receive, dispatch, if_neg h0, if_pos h5, if_neg h2, if_neg h6, if_neg h7,
      if_neg h8]
    rw [h5]
  · simp only [exec, execRxUnknownType, receive, dispatch, if_neg h0, if_neg h5]

/-- R150: the row of a frame, valid or not, is the event of the frame. -/
theorem exec_instrOfFrame (F : List Byte) (s : State) : exec (instrOfFrame F) s = exec (.rx F) s := by
  cases hv : validateInbound F with
  | false =>
    rw [instrOfFrame_of_invalid hv]
    rfl
  | true =>
    have hrx : exec (.rx F) s = .next (receiveFrame F s) := rfl
    rw [hrx, receiveFrame_of_valid hv, instrOfFrame, if_pos hv]
    exact exec_instrOfPayload F s

/-- A frame with its own checksum and both sentinels is read as the row of its payload and runs that row's event. -/
theorem frameOf_row {ty p2 p3 p4 p5 p6 p7 : Byte} {row : Instr} (h : instrOfPayload ty p2 p3 p4 p5 p6 p7 = row) :
    decode ⟨.rx10, frameOf ty p2 p3 p4 p5 p6 p7⟩ = .ok row ∧
      ∀ s : State, exec (.rx (frameOf ty p2 p3 p4 p5 p6 p7)) s = exec row s := by
  subst h
  refine ⟨decode_frameOf .., fun s => ?_⟩
  rw [← exec_instrOfFrame, instrOfFrame_frameOf]

/-! Events, R91: the code selects the operand's decoder. -/

theorem decode_req (w : Half) : decode ⟨.ev3, [1, loByte w, hiByte w]⟩ = .ok (.req w) := by
  have h : decode ⟨.ev3, [1, loByte w, hiByte w]⟩ = .ok (.req (halfOf (loByte w) (hiByte w))) := rfl
  rw [h, halfOf_bytes]

/-- R86: a frame of at most 255 bytes fits its length byte. -/
theorem decode_rx {F : List Byte} (h : F.length ≤ 255) :
    decode ⟨.ev3, 2 :: BitVec.ofNat 8 F.length :: F⟩ = .ok (.rx F) := by
  have hn : F.length = (BitVec.ofNat 8 F.length).toNat := by
    rw [BitVec.toNat_ofNat]
    omega
  exact if_pos hn

theorem decode_reserved {c : Byte} (h : c = 6 ∨ c = 7) (ops : List Byte) :
    decode ⟨.ev3, c :: ops⟩ = .error .reservedEventCode := by
  rcases h with rfl | rfl <;> rfl

theorem noOperand_eq_ok {i j : Instr} {ops : List Byte} (h : noOperand i ops = .ok j) : ops = [] ∧ j = i := by
  cases ops with
  | nil => cases h; exact ⟨rfl, rfl⟩
  | cons => cases h

theorem reqOperand_eq_ok {j : Instr} {ops : List Byte} (h : reqOperand ops = .ok j) :
    ∃ w, ops = [loByte w, hiByte w] ∧ j = .req w := by
  unfold reqOperand at h
  split at h <;> cases h
  exact ⟨_, by simp, rfl⟩

theorem rxOperand_eq_ok {j : Instr} {ops : List Byte} (h : rxOperand ops = .ok j) :
    ∃ F : List Byte, F.length ≤ 255 ∧ ops = BitVec.ofNat 8 F.length :: F ∧ j = .rx F := by
  cases ops with
  | nil => cases h
  | cons n F =>
    simp only [rxOperand] at h
    split at h <;> cases h
    rename_i hn
    have hlt := n.isLt
    exact ⟨F, by omega, by simp [hn], rfl⟩

theorem rdOperand_eq_ok {j : Instr} {ops : List Byte} (h : rdOperand ops = .ok j) : ∃ n, ops = [n] ∧ j = .rd n := by
  unfold rdOperand at h
  split at h <;> cases h
  exact ⟨_, rfl, rfl⟩

theorem encode_of_decodeEvent {bs : List Byte} {i : Instr} (h : decodeEvent bs = .ok i) :
    i.WF ∧ encode i = ⟨.ev3, bs⟩ := by
  cases bs with
  | nil => cases h
  | cons c ops =>
    simp only [decodeEvent] at h
    split_ifs at h with h0 h1 h2 h3 h4 h5
    · obtain ⟨rfl, rfl⟩ := noOperand_eq_ok h
      exact ⟨rfl, by rw [h0]; rfl⟩
    · obtain ⟨w, rfl, rfl⟩ := reqOperand_eq_ok h
      exact ⟨rfl, by rw [h1]; rfl⟩
    · obtain ⟨F, hF, rfl, rfl⟩ := rxOperand_eq_ok h
      exact ⟨wf_rx.2 hF, by rw [h2]; rfl⟩
    · obtain ⟨rfl, rfl⟩ := noOperand_eq_ok h
      exact ⟨rfl, by rw [h3]; rfl⟩
    · obtain ⟨rfl, rfl⟩ := noOperand_eq_ok h
      exact ⟨rfl, by rw [h4]; rfl⟩
    · obtain ⟨n, rfl, rfl⟩ := rdOperand_eq_ok h
      exact ⟨rfl, by rw [h5]; rfl⟩

/-- The machine with an input item that is no event (log entry 9). -/
theorem step_notAnEvent {s : State} {x : Input} {rest : List Input} {e : DecodeError} (hi : s.inputs = x :: rest)
    (hx : decode x = .error e) : step s = .fault (.notAnEvent e) := by
  simp [step, fetch, hi, hx]

/-! Words, R88: values placed side by side add up. -/

theorem toNat_place {n lo : Nat} (v : BitVec n) (h : lo + n ≤ 32) : (place lo v).toNat = v.toNat * 2 ^ lo := by
  have hv : v.toNat <<< lo < 2 ^ 32 :=
    (Nat.shiftLeft_lt v.isLt).trans_le (Nat.pow_le_pow_right (by decide) (by omega))
  rw [place, BitVec.toNat_shiftLeft, BitVec.toNat_setWidth_of_le (by omega), Nat.mod_eq_of_lt hv, Nat.shiftLeft_eq]

/-- A value placed above everything in `w`. -/
theorem toNat_place_or {n lo : Nat} (v : BitVec n) {w : Word} (h : lo + n ≤ 32) (hw : w.toNat < 2 ^ lo) :
    (place lo v ||| w).toNat = v.toNat * 2 ^ lo + w.toNat := by
  rw [BitVec.toNat_or, toNat_place v h, ← Nat.shiftLeft_eq, Nat.shiftLeft_add_eq_or_of_lt hw]

/-! The built frame, R84, R188. -/

/-- R124: the sum over the window of a built frame; the FF FF before the checksum add 0xFE. -/
theorem ckOut_build (qsid : Byte) (k : Kind) (a : Byte) :
    ckOut (build qsid k a) = sid qsid k + writeFlag k + dataByte k a + 0xFE := by
  simp [build_eq, ckOut, slice, sum8, BitVec.add_assoc]

end Sys2Proof.Machine
end

section
/-! The statements of spec/30_encoding.md, settled. -/

namespace Sys2Proof.Machine

/-- Settles O1, row by row: a request row is the word of its kind, an RX10 row the frame of its payload, an EV3 row its
code and its operand. -/
theorem decodeEncodeRoundTrip : Obligations.DecodeEncodeRoundTrip := by
  intro i hw
  cases i with
  | queryPm => exact decode_reqWord (k := .queryPm) rfl
  | getMode => exact decode_reqWord (k := .getMode) rfl
  | setMode a => exact decode_reqWord (k := .setMode) hw
  | getSleep => exact decode_reqWord (k := .getSleep) rfl
  | setSleep a => exact decode_reqWord (k := .setSleep) hw
  | getFirmware => exact decode_reqWord (k := .getFirmware) rfl
  | getPeriod => exact decode_reqWord (k := .getPeriod) rfl
  | setPeriod a => exact decode_reqWord (k := .setPeriod) hw
  | reqIllegal w =>
    rw [encode, decode_encodeWord, instrOfWord_of_illegal (wf_reqIllegal.1 hw)]
  | rxPm | rxMode | rxSleep | rxFirmware | rxPeriod => exact decode_frameOf ..
  | rxUnknownSetting id =>
    obtain ⟨h2, h6, h7, h8⟩ := wf_rxUnknownSetting.1 hw
    rw [encode, decode_frameOf, instrOfPayload_unknownSetting h2 h6 h7 h8]
  | rxUnknownType ty =>
    obtain ⟨h0, h5⟩ := wf_rxUnknownType.1 hw
    rw [encode, decode_frameOf, instrOfPayload_unknownType h0 h5]
  | rxInvalid F =>
    obtain ⟨hl, hv⟩ := wf_rxInvalid.1 hw
    rw [encode, decode_frame hl, instrOfFrame_of_invalid hv]
  | req w => exact decode_req w
  | rx F => exact decode_rx (wf_rx.1 hw)
  | reset | tick | close | rd => rfl

/-- Settles O2, format by format. -/
theorem encodeDecodeRoundTrip : Obligations.EncodeDecodeRoundTrip := by
  rintro ⟨format, bs⟩ i h
  cases format with
  | req16 =>
    match bs, h with
    | [lo, hi], h =>
      cases h
      simpa [encodeWord] using encode_instrOfWord (halfOf lo hi)
  | rx10 =>
    simp only [decode, decodeFrame] at h
    split at h <;> cases h
    exact encode_instrOfFrame ‹_›
  | ev3 => exact encode_of_decodeEvent h

/-- Settles O38: the values of a result word do not overlap, so they add up. -/
theorem resultWordOfEachKind : Obligations.ResultWordOfEachKind := by
  intro x
  have hmode : (place 0 (modeBit x.mode)).toNat = if x.mode = .active then 0 else 1 := by
    rw [modeBit_eq]
    split <;> rfl
  have hsleep : (place 0 (BitVec.ofBool x.sleeping)).toNat = if x.sleeping = true then 1 else 0 := by
    cases x.sleeping <;> rfl
  have hperiod : (place 0 x.period).toNat = x.period.toNat := by simp [toNat_place]
  have hpm : (place 0 x.pmA).toNat = x.pmA.toNat := by simp [toNat_place]
  have hy : (place 0 x.fwY).toNat = x.fwY.toNat := by simp [toNat_place]
  have hmy : (place 8 x.fwM ||| place 0 x.fwY).toNat = x.fwM.toNat * 2 ^ 8 + x.fwY.toNat := by
    rw [toNat_place_or _ (by decide) (by omega), hy]
  refine ⟨?_, hmode, hmode, hsleep, hsleep, ?_, hperiod, hperiod⟩
  · rw [fieldResult, toNat_place_or _ (by decide) (by omega), hpm]
  · rw [fieldResult, BitVec.or_assoc, toNat_place_or _ (by decide) (by omega), hmy, Nat.add_assoc]

/-- Settles O60: each frame is the frame of its payload, and the payload's row is read off its type and setting id. -/
theorem frameBytesSelectTheirRow : Obligations.FrameBytesSelectTheirRow := by
  intro f2 f3 f4 f5 f6 f7 isRow
  exact ⟨frameOf_row rfl, frameOf_row rfl, frameOf_row rfl, frameOf_row rfl, frameOf_row rfl,
    fun h2 h6 h7 h8 => frameOf_row (instrOfPayload_unknownSetting h2 h6 h7 h8 ..),
    fun _ h0 h5 => frameOf_row (instrOfPayload_unknownType h0 h5 ..)⟩

/-- Settles O3: the number of a request word decodes to its kind's row, and each event code to its operand's. -/
theorem opcodeTableWordsDecode : Obligations.OpcodeTableWordsDecode := by
  refine ⟨decodeTableWord_request .queryPm 0 rfl, decodeTableWord_request .getMode 0 rfl,
    decodeTableWord_request .setMode 0 rfl, decodeTableWord_request .setMode 1 rfl,
    decodeTableWord_request .getSleep 0 rfl, decodeTableWord_request .setSleep 0 rfl,
    decodeTableWord_request .setSleep 1 rfl, decodeTableWord_request .getFirmware 0 rfl,
    decodeTableWord_request .getPeriod 0 rfl, fun a ha => ?_, fun w hw => ?_,
    rfl, decode_req, fun _ => decode_rx, rfl, rfl, fun _ => rfl, rfl, rfl⟩
  · exact decodeTableWord_request .setPeriod a (by simpa [argLegal] using ha)
  · rw [decodeTableWord_half, instrOfWord_of_illegal hw]

/-- Settles O4: both codes decode to the same error, and the step that meets it stops with it. -/
theorem reservedEventCodesStop : Obligations.ReservedEventCodesStop := by
  intro c ops rest s hc hi
  exact step_notAnEvent hi (decode_reserved hc ops)

/-- Settles O13: the frame of each kind is `build_eq` with the kind's row of R85, and its checksum is `ckOut_build`. -/
theorem commandFrames : Obligations.CommandFrames := by
  intro qsid a frame
  refine ⟨build_eq .., build_eq .., build_eq .., build_eq .., build_eq .., build_eq .., build_eq .., build_eq ..,
    fun k => ?_⟩
  have hlen : (build qsid k a).length = 19 := by rw [build_eq]; rfl
  refine ⟨hlen, ?_, rfl, ?_⟩
  · rw [ckOut_build, build_eq]
    rfl
  · rw [ckVar_of_length (by omega), hlen]
    rfl

/-- Settles O24: the row and the raw word both run `requestWord`, which only answers. -/
theorem illegalWordsAreRefused : Obligations.IllegalWordsAreRefused := by
  intro w s h
  have hreq : exec (.req w) s = .next (requestWord w s) := rfl
  rw [requestWord_of_illegal h] at hreq
  exact ⟨hreq, hreq⟩

end Sys2Proof.Machine
end

section
/-! The facts the statements of spec/40_checksum.md cite: `sum8` and the order of the bytes, the frames too short for a
variable window, and the checksum position, which the window does not read and `ADD_CHECKSUM` alone writes. -/

namespace Sys2Proof.Machine

/-- R120: the sum as a number does not depend on the order, and it determines the byte. -/
theorem sum8_perm {bs cs : List Byte} (h : bs.Perm cs) : sum8 bs = sum8 cs := by
  apply BitVec.eq_of_toNat_eq
  rw [sum8_toNat, sum8_toNat, (h.map BitVec.toNat).sum_eq]

/-- R121. -/
theorem toNat_ckIn_ten (f0 f1 f2 f3 f4 f5 f6 f7 f8 f9 : Byte) :
    (ckIn [f0, f1, f2, f3, f4, f5, f6, f7, f8, f9]).toNat =
      (f2.toNat + f3.toNat + f4.toNat + f5.toNat + f6.toNat + f7.toNat) % 256 := by
  have hwindow : ckIn [f0, f1, f2, f3, f4, f5, f6, f7, f8, f9] = sum8 [f2, f3, f4, f5, f6, f7] := rfl
  rw [hwindow, sum8_toNat]
  simp [Nat.add_assoc]

/-- R122. -/
theorem ckInOk_iff {F : List Byte} : ckInOk F = true ↔ (byteAt F 8).toNat = (ckIn F).toNat := by
  rw [ckInOk, beq_iff_eq, BitVec.toNat_inj]

theorem ckVar_of_short {F : List Byte} (h : F.length < 4) : ckVar F = .error .window := if_pos h

theorem addChecksum_of_short {F : List Byte} (h : F.length < 4) : addChecksum F = .error .window := by
  simp [addChecksum, ckVar_of_short h]

/-- R123: the window ends before the checksum position, so it has four bytes fewer than the frame. -/
theorem slice_window {F : List Byte} (h : 4 ≤ F.length) :
    slice F 2 (F.length - 3) = (F.drop 2).take (F.length - 4) := by
  have hsize : F.length - 3 + 1 - 2 = F.length - 4 := by omega
  rw [slice, hsize]

/-- R123: writing the checksum position leaves the checksum as it was. -/
theorem ckVar_set_checksum {F : List Byte} (h : 4 ≤ F.length) (b : Byte) :
    ckVar (F.set (F.length - 2) b) = ckVar F := by
  rw [ckVar_of_length h, ckVar_of_length (by rwa [List.length_set]), List.length_set, slice_set_checksum F b h]

theorem byteAt_set_checksum {F : List Byte} (h : 4 ≤ F.length) (b : Byte) :
    byteAt (F.set (F.length - 2) b) (F.length - 2) = b := by
  have hlt : F.length - 2 < F.length := by omega
  simp [byteAt, hlt]

/-- R126: what the checksum position holds before `ADD_CHECKSUM` is overwritten and never read. -/
theorem addChecksum_set_checksum {F : List Byte} (h : 4 ≤ F.length) (b : Byte) :
    addChecksum (F.set (F.length - 2) b) = addChecksum F := by
  rw [addChecksum_of_length h, addChecksum_of_length (by rwa [List.length_set]), List.length_set, List.set_set,
    slice_set_checksum F b h]

end Sys2Proof.Machine
end

section
/-! The statements of spec/40_checksum.md, settled. -/

namespace Sys2Proof.Machine

/-- Settles O8: the sum as a number is `sum8_toNat`, and it does not see the order (`sum8_perm`). -/
theorem sum8IsTheSumModulo256 : Obligations.Sum8IsTheSumModulo256 :=
  ⟨sum8_toNat, rfl, fun _ _ => sum8_perm⟩

/-- Settles O10: the window is `slice_window`, without the checksum position (`ckVar_set_checksum`), and it is empty in a
frame of four bytes. -/
theorem variableWindowChecksum : Obligations.VariableWindowChecksum := by
  intro F
  have hvar : 4 ≤ F.length → ckVar F = .ok (sum8 ((F.drop 2).take (F.length - 4))) := by
    intro h
    rw [ckVar_of_length h, slice_window h]
  refine ⟨ckVar_of_short, fun h => ⟨hvar h, ckVar_set_checksum h⟩, fun h => ?_⟩
  rw [hvar h.ge, h, Nat.sub_self, List.take_zero]
  rfl

/-- Settles O12: from four bytes on `ADD_CHECKSUM` is one `set`, which neither `ckVar` nor a second `ADD_CHECKSUM` sees;
the frames of the builder are those of `commandFrames`. -/
theorem addChecksumWritesOneByte : Obligations.AddChecksumWritesOneByte := by
  refine ⟨fun F => addChecksum_of_short, fun F h => ?_, fun qsid k a => ?_⟩
  · have hadd := addChecksum_of_length h
    refine ⟨_, hadd, List.length_set, fun n hn => List.getElem?_set_ne hn.symm, ?_, ?_⟩
    · rw [byteAt_set_checksum h, ckVar_of_length h]
    · rw [addChecksum_set_checksum h, hadd]
  · obtain ⟨-, -, -, -, -, -, -, -, hframe⟩ := commandFrames qsid a
    obtain ⟨-, hbyte, -, hvar⟩ := hframe k
    rw [hbyte, hvar]

/-- Settles O9: the window as a number is `toNat_ckIn_ten`, and the test compares it with the ninth byte. -/
theorem fixedWindowChecksum : Obligations.FixedWindowChecksum := by
  intro f0 f1 f2 f3 f4 f5 f6 f7 f8 f9
  have hsum := toNat_ckIn_ten f0 f1 f2 f3 f4 f5 f6 f7 f8 f9
  refine ⟨hsum, ?_⟩
  rw [ckInOk_iff, hsum]
  rfl

/-- Settles O11: for ten bytes the variable window ends at offset 7, where the fixed one does. -/
theorem windowsAgreeOnTenBytes : Obligations.WindowsAgreeOnTenBytes := by
  intro F h
  rw [ckVar_of_length (by omega), h, ckIn]

end Sys2Proof.Machine
end

section
/-! The facts the statements of spec/41_frame_decode.md cite: the validator's three results by the bytes of the frame,
an RX event before and after CLOSE, a reading as a number, and what the decoders of R151, R152 and R157 write. -/

namespace Sys2Proof.Machine

/-! The validator, R141: its tests in their order. -/

theorem getElem?_eq_byteAt {F : List Byte} {i : Nat} (h : i < F.length) : F[i]? = some (byteAt F i) := by
  simp [byteAt, h]

theorem validate_of_misframed {F : List Byte} (h : F.length ≠ 10 ∨ F[0]? ≠ some 0xAA ∨ F[9]? ≠ some 0xAB) :
    validate F = .malformed := by
  by_cases hl : F.length = 10
  · rw [getElem?_eq_byteAt (i := 0) (by omega), getElem?_eq_byteAt (i := 9) (by omega)] at h
    rcases h with h | h | h
    · exact absurd hl h
    · simp_all [validate]
    · simp_all [validate]
  · exact if_pos hl

/-- With the length and both sentinels right, the checksum decides. -/
theorem validate_of_framed {F : List Byte} (hl : F.length = 10) (h0 : F[0]? = some 0xAA) (h9 : F[9]? = some 0xAB) :
    validate F = if F[8]? = some (sum8 ((F.drop 2).take 6)) then .valid else .checksumMismatch := by
  have hwindow : ckIn F = sum8 ((F.drop 2).take 6) := rfl
  rw [getElem?_eq_byteAt (by omega), Option.some.injEq] at h0 h9
  rw [getElem?_eq_byteAt (by omega), ← hwindow]
  simp [validate, ckInOk, hl, h0, h9]

theorem validateInbound_iff {F : List Byte} : validateInbound F = true ↔ validate F = .valid := by
  simp [validateInbound]

/-! RX, R140: the frame is dropped after CLOSE and judged by the validator before it. -/

theorem receive_of_closed {s : State} (h : s.closed = true) (f : State → State) :
    receive f s = { s with lastRx := .droppedClosed } := if_pos h

theorem receive_of_open {s : State} (h : s.closed = false) (f : State → State) : receive f s = f s := by
  simp [receive, h]

theorem receiveFrame_of_malformed {F : List Byte} {s : State} (hc : s.closed = false) (h : validate F = .malformed) :
    receiveFrame F s = { s with lastRx := .malformed } := by
  simp [receiveFrame, receive_of_open hc, h]

theorem receiveFrame_of_mismatch {F : List Byte} {s : State} (hc : s.closed = false)
    (h : validate F = .checksumMismatch) : receiveFrame F s = { s with lastRx := .checksumMismatch } := by
  simp [receiveFrame, receive_of_open hc, h]

/-! The decoders, R151 to R157. -/

/-- R151: two bytes make a reading without overflow. -/
theorem pair_toNat (lo hi : Byte) : (pair lo hi).toNat = lo.toNat + 256 * hi.toNat := by
  have hlo := lo.isLt
  have hhi := hi.isLt
  have h256 : (256 : Half).toNat = 256 := rfl
  simp only [pair, BitVec.toNat_add, BitVec.toNat_mul, BitVec.toNat_setWidth, h256]
  omega

/-- R153, R154: the byte that the decoders of mode and sleep single out, as a number. -/
theorem byte_eq_zero_iff {b : Byte} : b = 0 ↔ b.toNat = 0 := BitVec.toNat_inj.symm

theorem streaming_iff {x : Sensor} : streaming x = true ↔ x.modeV = true ∧ x.mode = .active := by
  simp [streaming]

/-- R152: the new readings do not bear on the reporting mode. -/
@[simp] theorem streaming_setPm (a b : Half) (x : Sensor) : streaming (setPm a b x) = streaming x := rfl

theorem decodePm_eq (aLo aHi bLo bHi : Byte) (s : State) :
    decodePm aLo aHi bLo bHi s =
      { s with
        sensor := setPm (pair aLo aHi) (pair bLo bHi) s.sensor
        lastRx := .okPm
        out := if s.sensor.modeV = true ∧ s.sensor.mode = .active then
            s.out ++ [.meas (pair aLo aHi) (pair bLo bHi)] else s.out } := by
  simp only [decodePm, streaming_setPm, streaming_iff]
  split <;> rfl

theorem unknown_of_propagate {s : State} (h : s.cfg.onUnknown = .propagate) (st : RxStatus) (ty id : Byte) :
    unknown st ty id s = { s with lastRx := st, unkSticky := true, out := s.out ++ [.rxerr st ty id] } := by
  simp [unknown, h, emit]

theorem unknown_of_ignore {s : State} (h : s.cfg.onUnknown = .ignore) (st : RxStatus) (ty id : Byte) :
    unknown st ty id s = { s with lastRx := st } := by
  simp [unknown, h]

end Sys2Proof.Machine
end

section
/-! The statements of spec/41_frame_decode.md, settled. -/

namespace Sys2Proof.Machine

open Host (Outcome)

/-- Settles O14: a frame fails a test of its length or its sentinels, or its checksum decides, and the three results
exclude each other. -/
theorem validatorDecision : Obligations.ValidatorDecision := by
  intro F
  rw [validateInbound_iff]
  by_cases h : F.length = 10 ∧ F[0]? = some 0xAA ∧ F[9]? = some 0xAB
  · obtain ⟨hl, h0, h9⟩ := h
    have hv := validate_of_framed hl h0 h9
    by_cases h8 : F[8]? = some (sum8 ((F.drop 2).take 6))
    · rw [hv, if_pos h8]
      exact ⟨iff_of_false (by simp) (by tauto), iff_of_false (by simp) (by tauto),
        iff_of_true rfl ⟨hl, h0, h9, h8⟩, .rfl⟩
    · rw [hv, if_neg h8]
      exact ⟨iff_of_false (by simp) (by tauto), iff_of_true rfl ⟨hl, h0, h9, h8⟩,
        iff_of_false (by simp) (by tauto), .rfl⟩
  · have hm : F.length ≠ 10 ∨ F[0]? ≠ some 0xAA ∨ F[9]? ≠ some 0xAB := by tauto
    rw [validate_of_misframed hm]
    exact ⟨iff_of_true rfl hm, iff_of_false (by simp) (by tauto), iff_of_false (by simp) (by tauto), .rfl⟩

/-- Settles O15: the case of each validator result, and for the elements it
leaves alone the effect every RX event has. -/
theorem rxEventOutcome : Obligations.RxEventOutcome := by
  intro F s
  have he := receiveFrame_effect F s
  refine ⟨receiveFrame F s, rfl, fun hc => receive_of_closed hc _, receiveFrame_of_malformed,
    receiveFrame_of_mismatch, fun hc hv => ?_, he.q, he.cnt, he.timerArmed, he.nextHandle, he.closed, he.cfg,
    he.inputs, he.rdAnswer, he.out⟩
  rw [receiveFrame_of_valid (validateInbound_iff.2 hv), receive_of_open hc]

/-- Settles O16: a frame that decodes is short enough for an RX event and decodes to its own row. -/
theorem rxRowsRunTheirFrame : Obligations.RxRowsRunTheirFrame := by
  intro F i s h
  simp only [decode, decodeFrame] at h
  split at h <;> cases h
  exact exec_instrOfFrame F s

/-- Settles O17: the readings are the two pairs, and `decodePm_eq` is the next state. -/
theorem pmFrameSetsReadings : Obligations.PmFrameSetsReadings := by
  intro aLo aHi bLo bHi x6 x7 s hc
  refine ⟨pair aLo aHi, pair bLo bHi, pair_toNat .., pair_toNat .., congrArg Outcome.next ?_⟩
  rw [receive_of_open hc, decodePm_eq]
  rfl

/-- Settles O18: the decoder's test for the byte 0 is the test on its number. -/
theorem modeFrameSetsMode : Obligations.ModeFrameSetsMode := by
  intro x3 mode x5 x6 x7 s hc
  refine congrArg Outcome.next ?_
  rw [receive_of_open hc]
  simp only [decodeMode, byte_eq_zero_iff]
  rfl

/-- Settles O19: the sleeping bit is the decoder's test for the byte 0. -/
theorem sleepFrameSetsSleeping : Obligations.SleepFrameSetsSleeping := by
  intro x3 sleep x5 x6 x7 s hc
  refine congrArg Outcome.next ?_
  have hb : (sleep == 0) = if sleep.toNat = 0 then true else false := by
    simpa [beq_eq_decide] using byte_eq_zero_iff (b := sleep)
  rw [receive_of_open hc, decodeSleep, hb]
  rfl

/-- Settles O20: no byte is checked or changed on its way to its field. -/
theorem firmwareFrameSetsFirmware : Obligations.FirmwareFrameSetsFirmware := by
  intro year month day x6 x7 s hc
  exact congrArg Outcome.next (receive_of_open hc (decodeFirmware year month day))

/-- Settles O21: the byte is stored without a check. -/
theorem periodFrameSetsPeriod : Obligations.PeriodFrameSetsPeriod := by
  intro x3 minutes x5 x6 x7 s hc
  exact congrArg Outcome.next (receive_of_open hc (decodePeriod minutes))

/-- Settles O22: both rows run `unknown`, and the policy decides what it does. -/
theorem unknownFramesAreReported : Obligations.UnknownFramesAreReported := by
  have row {st : RxStatus} {ty id : Byte} {s t : State} (hc : s.closed = false) (h : unknown st ty id s = t) :
      Outcome.next (φ := Fault) (ρ := Refusal) (receive (unknown st ty id) s) = .next t := by
    rw [receive_of_open hc, h]
  exact ⟨fun id _ _ _ _ _ s _ hc =>
      ⟨fun hp => row hc (unknown_of_propagate hp ..), fun hi => row hc (unknown_of_ignore hi ..)⟩,
    fun ty f2 _ _ _ _ _ s _ hc =>
      ⟨fun hp => row hc (unknown_of_propagate hp ..), fun hi => row hc (unknown_of_ignore hi ..)⟩⟩

/-- Settles O23: a discarded frame is not valid, so the validator gives one of the two other results. -/
theorem invalidFramesAreDiscarded : Obligations.InvalidFramesAreDiscarded := by
  intro F s hw hc
  obtain ⟨-, hi⟩ := wf_rxInvalid.1 hw
  cases hv : validate F with
  | malformed => exact ⟨_, congrArg Outcome.next (receiveFrame_of_malformed hc hv), .inl ⟨rfl, rfl⟩⟩
  | checksumMismatch => exact ⟨_, congrArg Outcome.next (receiveFrame_of_mismatch hc hv), .inr ⟨rfl, rfl⟩⟩
  | valid => simp [validateInbound_iff.2 hv] at hi

end Sys2Proof.Machine
end

section
/-! The facts the statements of spec/42_command_queue.md cite: the row of a request word, what each event does to the
queue and to the order of completions, the events after CLOSE, what an event puts out on a small budget, the branches of
TICK, the waiting of a command between its attempts, and its answer. -/

namespace Sys2Proof.Machine

open Host (Outcome)

/-! Request words, R181 to R183. -/

theorem kindOfCode_eq_some_iff {c : BitVec 4} {k : Kind} : kindOfCode c = some k ↔ c = kindCode k :=
  ⟨fun h => (kindCode_of_kindOfCode h).symm, fun h => h ▸ kindOfCode_kindCode k⟩

/-- R183 in the fields of the word. -/
theorem legal_iff {w : Half} :
    legal w = true ↔ rsvField w = 0 ∧ ∃ k, kindField w = kindCode k ∧ argLegal k (argField w) = true := by
  simp only [← kindOfCode_eq_some_iff]
  by_cases hr : rsvField w = 0#4
  · cases hk : kindOfCode (kindField w) <;> simp [legal, requestOf, hr, hk]
  · simp [legal, requestOf, hr]

/-- R82: a property of some kind, kind by kind. -/
theorem exists_kind {p : Kind → Prop} :
    (∃ k, p k) ↔ p .queryPm ∨ p .getMode ∨ p .setMode ∨ p .getSleep ∨ p .setSleep ∨ p .getFirmware ∨ p .getPeriod ∨
      p .setPeriod := by
  constructor
  · rintro ⟨k, hk⟩
    cases k <;> simp [hk]
  · rintro (h | h | h | h | h | h | h | h) <;> exact ⟨_, h⟩

theorem requestOf_of_legal {w : Half} (h : legal w = true) : ∃ k a, requestOf w = some (k, a) := by
  obtain ⟨⟨k, a⟩, hr⟩ := Option.isSome_iff_exists.1 h
  exact ⟨k, a, hr⟩

theorem requestWord_of_some {w : Half} {k : Kind} {a : Byte} (h : requestOf w = some (k, a)) (s : State) :
    requestWord w s = submit k a s := by
  simp [requestWord, h]

/-- R83: a kind without an argument has the argument 0. -/
theorem requestOfInstr_instrOfRequest {k : Kind} {a : Byte} (h : argLegal k a = true) :
    requestOfInstr (instrOfRequest k a) = some (k, a) := by
  cases k
  case setMode | setSleep | setPeriod => rfl
  case queryPm | getMode | getSleep | getFirmware | getPeriod =>
    obtain rfl : a = 0 := by simpa [argLegal] using h
    rfl

/-- R181: the row of a request word, legal or not, is the event of the word. -/
theorem exec_instrOfWord (w : Half) (s : State) : exec (instrOfWord w) s = exec (.req w) s := by
  cases h : requestOf w with
  | none =>
    simp only [instrOfWord, h]
    rfl
  | some r =>
    obtain ⟨k, a⟩ := r
    have ha := argLegal_of_requestOf h
    have hreq : exec (.req w) s = .next (requestWord w s) := rfl
    rw [hreq, requestWord_of_some h]
    simp only [instrOfWord, h]
    exact exec_request (requestOfInstr_instrOfRequest ha) (encode_instrOfRequest ha).1 s

/-! Accepted requests, R181. -/

theorem submit_of_room {k : Kind} {a : Byte} {s : State} (hc : s.closed = false)
    (hl : s.q.length ≠ s.cfg.qdepth.toNat) : submit k a s = accept k a s := by
  simp [submit, hc, hl]

@[simp] theorem accept_nextHandle (k : Kind) (a : Byte) (s : State) :
    (accept k a s).nextHandle = succHandle s.nextHandle := by
  by_cases hq : s.q = []
  · simp [accept_of_empty k a hq, attempt, enqueue]
  · simp [accept_of_ne_nil k a hq, enqueue]

/-! The order of completions, R194. -/

/-- What R194 says of an event from `s` to `t` in which `joined` entered the queue at its back: entries left from the
front, and their DONE records, in their order, are the only ones put out. -/
def CompletesInOrder (joined : List Entry) (s t : State) : Prop :=
  ∃ (m : Nat) (l : List Record),
    t.out = s.out ++ l ∧ t.q = (s.q ++ joined).drop m ∧
    completions l = ((s.q ++ joined).take m).map fun e => (e.handle, e.boot)

/-- No entry leaves and no command completes. -/
theorem CompletesInOrder.of_none_left {joined : List Entry} {s t : State} {l : List Record} (ho : t.out = s.out ++ l)
    (hq : t.q = s.q ++ joined) (hl : completions l = []) : CompletesInOrder joined s t :=
  ⟨0, l, ho, hq, hl⟩

theorem attempt_completesInOrder (s : State) : CompletesInOrder [] s (attempt s) := by
  obtain ⟨m, l, hq, ho, hl⟩ := attemptFrom_fifo s.q s rfl
  exact ⟨m, l, ho, by simpa [attempt] using hq, by simpa using hl⟩

/-- R182, R194: the answer comes before every other record, and completes nothing. -/
theorem accept_completesInOrder (k : Kind) (a : Byte) (s : State) :
    ∃ (m : Nat) (l : List Record),
      (accept k a s).out = s.out ++ .reqresp .accepted s.nextHandle :: l ∧
      (accept k a s).q = (enqueue k a s).q.drop m ∧
      completions l = ((enqueue k a s).q.take m).map fun e => (e.handle, e.boot) := by
  by_cases hq : s.q = []
  · obtain ⟨m, l, hq', ho, hl⟩ := attemptFrom_fifo _ (respond .accepted s.nextHandle (enqueue k a s)) rfl
    rw [accept_of_empty k a hq]
    exact ⟨m, l, by simpa [attempt, enqueue] using ho, hq', hl⟩
  · rw [accept_of_ne_nil k a hq]
    exact ⟨0, [], by simp [enqueue], rfl, rfl⟩

theorem completions_map_closedRecord (q : List Entry) :
    completions (q.map closedRecord) = q.map fun e => (e.handle, e.boot) := by
  induction q with
  | nil => rfl
  | cons e rest ih => simp [closedRecord, completions, ih]

theorem closeConnection_of_closed {s : State} (h : s.closed = true) : closeConnection s = s := if_pos h

theorem closeConnection_of_open {s : State} (h : s.closed = false) :
    closeConnection s =
      { s with closed := true, timerArmed := false, q := [], cnt := 0, out := s.out ++ closeRecords s } := by
  simp [closeConnection, h]

/-- R200: under FAIL_PENDING the whole queue leaves. -/
theorem closeConnection_completesInOrder {s : State} (hp : s.cfg.closePolicy = .failPending) :
    CompletesInOrder [] s (closeConnection s) := by
  cases hc : s.closed with
  | true =>
    rw [closeConnection_of_closed hc]
    exact .of_none_left (l := []) (by simp) (by simp) rfl
  | false =>
    rw [closeConnection_of_open hc]
    exact ⟨s.q.length, closeRecords s, rfl, by simp,
      by simp [closeRecords, hp, completions_map_closedRecord, completions]⟩

/-- An RX event completes no command. -/
theorem completions_eq_nil {l : List Record}
    (h : ∀ r ∈ l, (∃ a b, r = .meas a b) ∨ ∃ st ty id, r = .rxerr st ty id) : completions l = [] := by
  induction l with
  | nil => rfl
  | cons r l ih =>
    obtain ⟨hr, hl⟩ := List.forall_mem_cons.1 h
    rcases hr with ⟨a, b, rfl⟩ | ⟨st, ty, id, rfl⟩ <;> exact ih hl

/-- R194, R180, R70 for every event but RESET, and CLOSE under ABANDON. -/
theorem exec_completesInOrder {i : Instr} {s t : State} (hi : i ≠ .reset)
    (hp : i = .close → s.cfg.closePolicy = .failPending) (h : exec i s = .next t) :
    ∃ joined : List Entry, joined.length ≤ 1 ∧ CompletesInOrder joined s t := by
  rcases exec_cases h with ⟨-, he⟩ | ⟨-, st, n, rfl⟩ | ⟨-, k, a, -, -, -, rfl⟩ | ⟨hr, -⟩ | ⟨hcl, rfl⟩ |
    ⟨-, -, -, rfl⟩ | ⟨n, -, rfl⟩
  · obtain ⟨l, ho, hl⟩ := he.out
    exact ⟨[], by simp, .of_none_left ho (by simpa using he.q) (completions_eq_nil hl)⟩
  · exact ⟨[], by simp, .of_none_left (l := [.reqresp st n]) rfl (by simp) rfl⟩
  · obtain ⟨m, l, ho, hq, hl⟩ := accept_completesInOrder k a s
    exact ⟨[⟨s.nextHandle, false, k, a⟩], by simp, m, _, ho, hq, hl⟩
  · exact absurd hr hi
  · exact ⟨[], by simp, closeConnection_completesInOrder (hp hcl)⟩
  · exact ⟨[], by simp, attempt_completesInOrder { s with timerArmed := false }⟩
  · exact ⟨[], by simp, .of_none_left (l := []) (by simp) (by simp) rfl⟩

/-! After CLOSE, R201. -/

theorem exec_tick_of_disarmed {s : State} (h : s.timerArmed = false) : exec .tick s = .fault .tickNotEnabled := if_pos h

theorem exec_receive_of_closed {i : Instr} {s : State} (hi : isReceive i = true) (hc : s.closed = true) :
    exec i s = .next { s with lastRx := .droppedClosed } := by
  cases i
  case rxPm | rxMode | rxSleep | rxFirmware | rxPeriod | rxUnknownSetting | rxUnknownType | rxInvalid | rx =>
    exact congrArg Outcome.next (receive_of_closed hc _)
  all_goals cases hi

theorem Inv.timerArmed_of_closed {s : State} (h : Inv s) (hc : s.closed = true) : s.timerArmed = false := by
  rw [← Bool.not_eq_true]
  exact fun ht => h.timer.2 ht (h.shut hc)

/-! Budgets of at most one, R193, R282. -/

/-- With the budget `n`, an event from `s` to `t` puts out no success, and no frame if `n` is 0. -/
def NoSuccess (n : Byte) (s t : State) : Prop :=
  ∃ l : List Record, t.out = s.out ++ l ∧
    (∀ (h : Byte) (b : Bool) (k : Kind) (r : Word), .done h b k .success r ∉ l) ∧
    (n = 0 → ∀ F : List Byte, .tx F ∉ l)

theorem NoSuccess.of_out_eq {n : Byte} {s t : State} (h : t.out = s.out) : NoSuccess n s t :=
  ⟨[], by simpa using h, by simp, by simp⟩

theorem NoSuccess.trans {n : Byte} {s t u : State} (h : NoSuccess n s t) (h' : NoSuccess n t u) : NoSuccess n s u := by
  obtain ⟨l, ho, hd, hx⟩ := h
  obtain ⟨l', ho', hd', hx'⟩ := h'
  refine ⟨l ++ l', by rw [ho', ho, List.append_assoc], fun h b k r hm => ?_, fun hn F hm => ?_⟩
  · exact (List.mem_append.1 hm).elim (hd h b k r) (hd' h b k r)
  · exact (List.mem_append.1 hm).elim (hx hn F) (hx' hn F)

theorem respond_noSuccess (n : Byte) (st : ReqStatus) (h : Byte) (s : State) : NoSuccess n s (respond st h s) :=
  ⟨[.reqresp st h], rfl, by simp, by simp⟩

/-- A first attempt prepares, and a later one is beyond a budget of one: no attempt finds its field set. -/
theorem attemptFrom_noSuccess (q : List Entry) {s : State} (hN : s.cfg.allowedRetries.toNat ≤ 1)
    (hc : s.cnt.toNat ≤ 254) : NoSuccess s.cfg.allowedRetries s (attemptFrom q s) := by
  induction q generalizing s with
  | nil => exact .of_out_eq rfl
  | cons e rest ih =>
    by_cases hb : s.cfg.allowedRetries < s.cnt + 1
    · have failed : NoSuccess s.cfg.allowedRetries s (finish e rest .retryExhausted 0 (beginAttempt e s)) :=
        ⟨[.done e.handle e.boot e.kind .retryExhausted 0], by simp, by simp, by simp⟩
      have next := ih (s := finish e rest .retryExhausted 0 (beginAttempt e s)) (by simpa using hN) (by simp)
      rw [attemptFrom_exhausted hb]
      rw [finish_cfg, beginAttempt_cfg] at next
      exact failed.trans next
    · have hle : s.cnt.toNat + 1 ≤ s.cfg.allowedRetries.toNat := not_lt.1 (mt (budget_iff hc).2 hb)
      have h0 : s.cnt = 0 := BitVec.eq_of_toNat_eq (by simp; omega)
      have hpos : s.cfg.allowedRetries ≠ 0 := cnt_ne_zero (by omega)
      rw [attemptFrom_first h0 (by omega)]
      exact ⟨[txRecord s.cfg e], rfl, by simp [txRecord], fun hn => absurd hn hpos⟩

theorem accept_noSuccess (k : Kind) (a : Byte) {s : State} (hN : s.cfg.allowedRetries.toNat ≤ 1)
    (hc : s.cnt.toNat ≤ 254) : NoSuccess s.cfg.allowedRetries s (accept k a s) := by
  have answered : NoSuccess s.cfg.allowedRetries s (respond .accepted s.nextHandle (enqueue k a s)) :=
    respond_noSuccess _ _ _ (enqueue k a s)
  by_cases hq : s.q = []
  · rw [accept_of_empty k a hq]
    exact answered.trans (attemptFrom_noSuccess (s := respond .accepted s.nextHandle (enqueue k a s)) _ hN hc)
  · rw [accept_of_ne_nil k a hq]
    exact answered

theorem mem_closeRecords {r : Record} {s : State} (h : r ∈ closeRecords s) :
    r = .closed ∨ ∃ e, r = closedRecord e := by
  unfold closeRecords at h
  split at h
  · rcases List.mem_append.1 h with h | h
    · obtain ⟨e, -, rfl⟩ := List.mem_map.1 h
      exact .inr ⟨e, rfl⟩
    · exact .inl (List.mem_singleton.1 h)
  · exact .inl (List.mem_singleton.1 h)

theorem closeConnection_noSuccess (n : Byte) (s : State) : NoSuccess n s (closeConnection s) := by
  cases hc : s.closed with
  | true =>
    rw [closeConnection_of_closed hc]
    exact .of_out_eq rfl
  | false =>
    rw [closeConnection_of_open hc]
    refine ⟨closeRecords s, rfl, fun h b k r hm => ?_, fun _ F hm => ?_⟩ <;>
      rcases mem_closeRecords hm with hr | ⟨e, hr⟩ <;> cases hr

theorem exec_noSuccess {i : Instr} {s t : State} (hs : Inv s) (hN : s.cfg.allowedRetries.toNat ≤ 1)
    (h : exec i s = .next t) : NoSuccess s.cfg.allowedRetries s t := by
  have hc : s.cnt.toNat ≤ 254 := by
    by_cases hq : s.q = []
    · simp [hs.idle hq]
    · have hle := (hs.counting hq).2
      omega
  rcases exec_cases h with ⟨-, he⟩ | ⟨-, st, n, rfl⟩ | ⟨-, k, a, -, -, -, rfl⟩ | ⟨-, rfl⟩ | ⟨-, rfl⟩ |
    ⟨-, -, -, rfl⟩ | ⟨n, -, rfl⟩
  · obtain ⟨l, ho, hl⟩ := he.out
    refine ⟨l, ho, fun h b k r hm => ?_, fun _ F hm => ?_⟩ <;>
      rcases hl _ hm with ⟨a, b, hr⟩ | ⟨st, ty, id, hr⟩ <;> cases hr
  · exact respond_noSuccess _ st n s
  · exact accept_noSuccess k a hN hc
  · exact attemptFrom_noSuccess (s := { resetElements s with q := [bootEntry s.cfg] }) _ hN (by simp)
  · exact closeConnection_noSuccess _ s
  · exact attemptFrom_noSuccess (s := { s with timerArmed := false }) _ hN hc
  · exact .of_out_eq rfl

/-! TICK, R190 to R192. -/

/-- The state in which the head has left with its record, the timer is not armed, and the next head is attempted. -/
def headDone (rest : List Entry) (r : Record) (s : State) : State :=
  { s with q := rest, cnt := 0, timerArmed := false, out := s.out ++ [r] }

theorem exec_tick_retries {e : Entry} {rest : List Entry} {s : State} (ht : s.timerArmed = true) (hq : s.q = e :: rest)
    (hc : 1 ≤ s.cnt.toNat) (hN : s.cnt.toNat + 1 ≤ s.cfg.allowedRetries.toNat)
    (hf : fieldValid e.kind s.sensor = false) :
    exec .tick s = .next { s with cnt := s.cnt + 1, timerArmed := true, out := s.out ++ [txRecord s.cfg e] } := by
  have hlt := s.cfg.allowedRetries.isLt
  have hb : ¬ s.cfg.allowedRetries < s.cnt + 1 := mt (budget_iff (by omega)).1 (by omega)
  exact (exec_tick ht hq).trans (congrArg Outcome.next
    (attemptFrom_later_execute (s := { s with timerArmed := false }) (cnt_ne_zero hc) hb hf))

theorem exec_tick_succeeds {e : Entry} {rest : List Entry} {s : State} (ht : s.timerArmed = true) (hq : s.q = e :: rest)
    (hc : 1 ≤ s.cnt.toNat) (hN : s.cnt.toNat + 1 ≤ s.cfg.allowedRetries.toNat)
    (hf : fieldValid e.kind s.sensor = true) :
    exec .tick s =
      .next (attemptFrom rest (headDone rest (doneRecord e .success (fieldResult e.kind s.sensor)) s)) := by
  have hlt := s.cfg.allowedRetries.isLt
  have hb : ¬ s.cfg.allowedRetries < s.cnt + 1 := mt (budget_iff (by omega)).1 (by omega)
  exact (exec_tick ht hq).trans (congrArg Outcome.next
    (attemptFrom_later_success (s := { s with timerArmed := false }) (cnt_ne_zero hc) hb hf))

theorem exec_tick_exhausts {e : Entry} {rest : List Entry} {s : State} (ht : s.timerArmed = true) (hq : s.q = e :: rest)
    (hN : 1 ≤ s.cfg.allowedRetries.toNat) (hc : s.cfg.allowedRetries.toNat ≤ s.cnt.toNat) (hm : s.cnt.toNat ≤ 254) :
    exec .tick s = .next (attemptFrom rest (headDone rest (doneRecord e .retryExhausted 0) s)) := by
  have hb : s.cfg.allowedRetries < s.cnt + 1 := (budget_iff hm).2 (by omega)
  have h0 : s.cnt ≠ 0 := cnt_ne_zero (hN.trans hc)
  exact (exec_tick ht hq).trans (congrArg Outcome.next
    (attemptFrom_later_exhausted (s := { s with timerArmed := false }) h0 hb))

/-- R192 with a head behind the one that left: it is prepared and sent. -/
theorem attemptFrom_headDone {e : Entry} {rest : List Entry} {s : State} (r : Record)
    (hN : 1 ≤ s.cfg.allowedRetries.toNat) :
    attemptFrom (e :: rest) (headDone (e :: rest) r s) =
      { s with
        sensor := clearField e.kind s.sensor
        q := e :: rest
        cnt := 1
        timerArmed := true
        out := s.out ++ [r, txRecord s.cfg e] } := by
  rw [attemptFrom_first (s := headDone (e :: rest) r s) rfl hN]
  simp [headDone]

/-- R282: the attempt after the answer succeeds within the budget and fails beyond it, and no entry is behind the
head. -/
theorem exec_tick_answered {e : Entry} {s : State} (ht : s.timerArmed = true) (hq : s.q = [e]) (hc : 1 ≤ s.cnt.toNat)
    (hN : s.cnt.toNat ≤ s.cfg.allowedRetries.toNat) (hm : s.cfg.allowedRetries.toNat ≤ 254)
    (hf : fieldValid e.kind s.sensor = true) :
    exec .tick s = .next (headDone []
      (if s.cnt.toNat < s.cfg.allowedRetries.toNat then doneRecord e .success (fieldResult e.kind s.sensor)
        else doneRecord e .retryExhausted 0) s) := by
  split
  · exact exec_tick_succeeds ht hq hc (by omega) hf
  · exact exec_tick_exhausts ht hq (by omega) (by omega) (by omega)

/-! A command waiting between its attempts. -/

theorem run_snoc {n : Nat} {s t u : State} (h : Host.Core.run Sys2Proof.core n s = .next t) (hs : step t = .next u) :
    Host.Core.run Sys2Proof.core (n + 1) s = .next u := by
  induction n generalizing s with
  | zero =>
    cases h
    exact run_succ hs
  | succ n ih =>
    cases h1 : step s with
    | next s' =>
      rw [run_succ h1] at h ⊢
      exact ih h
    | fault r =>
      have h1' : Sys2Proof.core.step s = .fault r := h1
      simp [Host.Core.run, h1'] at h
    | refused r =>
      have h1' : Sys2Proof.core.step s = .refused r := h1
      simp [Host.Core.run, h1'] at h

/-- The idle state `s` after a request into its empty queue and `c` attempts that sent the frame, with the inputs `l`
still to come. -/
def waiting (k : Kind) (a : Byte) (s : State) (c : Nat) (l : List Input) : State :=
  { s with
    sensor := clearField k s.sensor
    q := [⟨s.nextHandle, false, k, a⟩]
    cnt := BitVec.ofNat 8 c
    timerArmed := true
    nextHandle := succHandle s.nextHandle
    inputs := l
    out := s.out ++ .reqresp .accepted s.nextHandle :: List.replicate c (.tx (build s.cfg.querySettingId k a)) }

theorem waiting_cnt_toNat {c : Nat} (h : c ≤ 254) (k : Kind) (a : Byte) (s : State) (l : List Input) :
    (waiting k a s c l).cnt.toNat = c := by
  simp only [waiting, BitVec.toNat_ofNat]
  omega

theorem exec_request_waiting {i : Instr} {k : Kind} {a : Byte} {s : State} (hi : requestOfInstr i = some (k, a))
    (hw : i.WF) (hc : s.closed = false) (hq : s.q = []) (hcnt : s.cnt = 0) (hd : 1 ≤ s.cfg.qdepth.toNat)
    (hN : 1 ≤ s.cfg.allowedRetries.toNat) : exec i s = .next (waiting k a s 1 s.inputs) := by
  rw [exec_request hi hw, submit_first hc hq hcnt hd hN]
  rfl

theorem exec_tick_waiting {k : Kind} {a : Byte} {s : State} {c : Nat} (hs : s.cfg.WF) (hc : 1 ≤ c)
    (hN : c + 1 ≤ s.cfg.allowedRetries.toNat) (l : List Input) :
    exec .tick (waiting k a s c l) = .next (waiting k a s (c + 1) l) := by
  have hm := hs.1
  have hcnt := waiting_cnt_toNat (c := c) (by omega) k a s l
  rw [exec_tick_retries (s := waiting k a s c l) rfl rfl (by omega) (by rw [hcnt]; exact hN)
    (fieldValid_clearField k s.sensor)]
  simp [waiting, txRecord, BitVec.ofNat_add, List.replicate_succ']

/-- Attempts in a row, where `f n` are the inputs before the last `n` of them and each step is a TICK. -/
theorem run_waiting {k : Kind} {a : Byte} {s : State} {f : Nat → List Input} (hs : s.cfg.WF)
    (hf : ∀ n c, step (waiting k a s c (f (n + 1))) = exec .tick (waiting k a s c (f n))) {c j : Nat} (hc : 1 ≤ c)
    (hN : c + j ≤ s.cfg.allowedRetries.toNat) :
    Host.Core.run Sys2Proof.core j (waiting k a s c (f j)) = .next (waiting k a s (c + j) (f 0)) := by
  induction j generalizing c with
  | zero => rfl
  | succ j ih =>
    rw [run_succ ((hf j c).trans (exec_tick_waiting hs hc (by omega) (f j))), ih (by omega) (by omega)]
    congr 2
    omega

/-! The answer to a command. -/

/-- `j` TICKs, then the answer and the TICK that finds it. -/
def answerAfter (r : Instr) (j : Nat) : List Input := List.replicate j (encode .tick) ++ [encode r, encode .tick]

theorem wf_isReceive_of_answers {k : Kind} {r : Instr} (h : answers k r = true) : r.WF ∧ isReceive r = true := by
  unfold answers at h
  split at h
  case h_9 => cases h
  all_goals exact ⟨rfl, rfl⟩

theorem exec_receiveEffect {i : Instr} {s t : State} (hi : isReceive i = true) (h : exec i s = .next t) :
    ReceiveEffect s t := by
  rcases exec_rx_cases h with ⟨-, -, he⟩ | ⟨hr, -⟩ | ⟨hr, -⟩
  · exact he
  · simp [hi] at hr
  · simp [hi] at hr

/-- What the answer to a command does: its field is set, and one MEAS at most is put out. -/
structure AnswerEffect (k : Kind) (s t : State) : Prop where
  valid : fieldValid k t.sensor = true
  out : ∃ mid : List Record, t.out = s.out ++ mid ∧ mid.length ≤ 1 ∧ ∀ x ∈ mid, ∃ pmA pmB, x = .meas pmA pmB

theorem AnswerEffect.of_out_eq {k : Kind} {s t : State} (hv : fieldValid k t.sensor = true) (ho : t.out = s.out) :
    AnswerEffect k s t :=
  ⟨hv, [], by simp [ho], by simp, by simp⟩

/-- R152: the MEAS is of the known stream mode. -/
theorem decodePm_answerEffect (aLo aHi bLo bHi : Byte) (s : State) :
    AnswerEffect .queryPm s (decodePm aLo aHi bLo bHi s) := by
  rw [decodePm_eq]
  by_cases hs : s.sensor.modeV = true ∧ s.sensor.mode = .active
  · exact ⟨rfl, [.meas _ _], if_pos hs, by simp, by simp⟩
  · exact .of_out_eq rfl (if_neg hs)

theorem exec_answer {k : Kind} {r : Instr} {s : State} (h : answers k r = true) (hc : s.closed = false) :
    ∃ t : State, exec r s = .next t ∧ AnswerEffect k s t := by
  unfold answers at h
  split at h
  case h_1 => exact ⟨_, congrArg Outcome.next (receive_of_open hc _), decodePm_answerEffect ..⟩
  case h_9 => cases h
  all_goals exact ⟨_, congrArg Outcome.next (receive_of_open hc _), .of_out_eq rfl rfl⟩

end Sys2Proof.Machine
end

section
/-! The statements of spec/42_command_queue.md, settled. -/

namespace Sys2Proof.Machine

open Host (Outcome)

/-- Settles O56: over the cases of an event, an attempt and CLOSE under FAIL_PENDING are the ways out of the queue, and
an accepted request the way in. -/
theorem commandsCompleteInOrder : Obligations.CommandsCompleteInOrder := by
  intro i s t hi hp h
  obtain ⟨joined, hj, m, l, ho, hq, hl⟩ := exec_completesInOrder hi hp h
  exact ⟨joined, m, l, hj, ho, hq, hl⟩

/-- Settles O7: a word is legal by its fields, and the kinds are taken one by one. -/
theorem requestWordLegality : Obligations.RequestWordLegality := by
  intro w
  rw [legal_iff, exists_kind]
  simp only [kindCode, argLegal, Bool.or_eq_true, beq_iff_eq, decide_eq_true_eq]
  simp only [rsvField, kindField, argField]
  grind

/-- Settles O25: the row of an illegal word, and for a legal one the three cases of `submit`. -/
theorem requestChecksInOrder : Obligations.RequestChecksInOrder := by
  intro w s
  refine ⟨requestWord w s, rfl, fun hl => requestWord_of_illegal hl s, ?_⟩
  by_cases hl : legal w = true
  · obtain ⟨k, a, hr⟩ := requestOf_of_legal hl
    rw [requestWord_of_some hr]
    refine ⟨fun _ hc => submit_closed hc, fun _ hc hq => submit_full hc hq, fun _ hc hq => ?_⟩
    obtain ⟨-, l, ho, -⟩ := accept_completesInOrder k a s
    rw [submit_of_room hc hq, accept_nextHandle, succHandle_eq]
    exact ⟨rfl, l, ho⟩
  · simp [hl]

/-- Settles O30: a word of two bytes decodes to its row, and the row runs the word. -/
theorem reqWordRunsItsRow : Obligations.ReqWordRunsItsRow := by
  intro lo hi i s h
  cases h
  exact (exec_instrOfWord (halfOf lo hi) s).symm

/-- Settles O26: the first two tests of `submit`. -/
theorem requestsRefusedClosedOrFull : Obligations.RequestsRefusedClosedOrFull := by
  intro i k a s hi hw
  rw [exec_request hi hw]
  exact ⟨fun hc => congrArg Outcome.next (submit_closed hc),
    fun hc hq => congrArg Outcome.next (submit_full hc hq)⟩

/-- Settles O27: `submit` behind a head. -/
theorem requestQueuesBehindTheHead : Obligations.RequestQueuesBehindTheHead := by
  intro i k a s hi hw hc hq hl
  rw [exec_request hi hw, submit_behind hc hq hl, succHandle_eq]

/-- Settles O28: `submit` into an empty queue makes a first attempt. -/
theorem requestIntoEmptyQueueIsSent : Obligations.RequestIntoEmptyQueueIsSent := by
  intro i k a s hi hw hc hq hcnt hd hN
  rw [exec_request hi hw, submit_first hc hq hcnt hd hN, succHandle_eq]

/-- Settles O29: `submit` into an empty queue, where the first attempt is beyond the budget. -/
theorem requestWithoutBudgetFailsAtOnce : Obligations.RequestWithoutBudgetFailsAtOnce := by
  intro i k a s hi hw hc hq hcnt hd hN
  rw [exec_request hi hw, submit_noBudget hc hq hcnt hd hN, succHandle_eq]

/-- Settles O37: the columns of R186 and R187. -/
theorem fieldOfEachKind : Obligations.FieldOfEachKind := by
  intro s
  refine ⟨?_, ?_, ?_, ?_, ?_, ?_, ?_, ?_, ?_, ?_, ?_, ?_, ?_, ?_, ?_, ?_⟩ <;> rfl

/-- Settles O39: CLOSE of an open state empties the queue into its records, and of a closed state does nothing. -/
theorem closeEvent : Obligations.CloseEvent := by
  have hrecord : closedRecord = fun e => doneRecord e .connectionClosed 0 := rfl
  intro s
  refine ⟨fun hc => congrArg Outcome.next (closeConnection_of_closed hc), fun hc hp => congrArg Outcome.next ?_,
    fun hc hp => congrArg Outcome.next ?_⟩
  · simp [closeConnection_of_open hc, closeRecords, hp, hrecord]
  · simp [closeConnection_of_open hc, closeRecords, hp]

/-- Settles O41: a number from 8 on is none of the eight that `regRead` tests for. -/
theorem rdAnswersAndChangesNothing : Obligations.RdAnswersAndChangesNothing := by
  intro n s
  refine ⟨rfl, fun hn => ?_⟩
  have undefined {m : Byte} (hm : m.toNat < 8) : n ≠ m := by
    rintro rfl
    omega
  simp only [regRead]
  iterate 8 rw [if_neg (undefined (by decide))]

/-- Settles O31: a disarmed TICK stops, and an armed state of R37 has a head to attempt. -/
theorem tickEnabledExactlyWhileArmed : Obligations.TickEnabledExactlyWhileArmed := by
  refine ⟨fun s ht => exec_tick_of_disarmed ht, fun s hs => ⟨fun ht => ?_, fun ⟨t, h⟩ => ?_⟩⟩
  · obtain ⟨e, rest, hq⟩ := List.exists_cons_of_ne_nil (hs.timer.2 ht)
    exact ⟨_, exec_tick ht hq⟩
  · rw [← Bool.not_eq_false]
    intro ht
    rw [exec_tick_of_disarmed ht] at h
    cases h

/-- Settles O32: the last branch of R191 at a later attempt. -/
theorem tickRetriesTheHead : Obligations.TickRetriesTheHead :=
  fun _ _ _ => exec_tick_retries

/-- Settles O33: the head leaves with a success, and then R192 for each shape of the rest. -/
theorem tickCompletesTheHead : Obligations.TickCompletesTheHead := by
  intro e s ht hc hN hf
  refine ⟨fun hq => exec_tick_succeeds ht hq hc hN hf, fun e' rest hq => ?_⟩
  rw [exec_tick_succeeds ht hq hc hN hf, attemptFrom_headDone _ (by omega)]

/-- Settles O34: the head leaves with a failure, and then R192 for each shape of the rest. -/
theorem tickExhaustsTheHead : Obligations.TickExhaustsTheHead := by
  intro e s ht hN hc hm
  refine ⟨fun hq => exec_tick_exhausts ht hq hN hc hm, fun e' rest hq => ?_⟩
  rw [exec_tick_exhausts ht hq hN hc hm, attemptFrom_headDone _ hN]

/-- Settles O35: the request and N - 1 TICKs send the frame N times, and one more TICK exhausts the head. -/
theorem unansweredCommandRun : Obligations.UnansweredCommandRun := by
  intro i k a s hi hw hc hq hcnt ht hin hs h tx
  obtain ⟨hmax, -, hd⟩ := id hs
  rcases Nat.eq_zero_or_pos s.cfg.allowedRetries.toNat with h0 | hN
  · have hN : s.cfg.allowedRetries = 0 := BitVec.eq_of_toNat_eq h0
    refine ⟨_, (exec_request hi hw s).trans (congrArg Outcome.next (submit_noBudget hc hq hcnt hd hN)),
      fun j hj => by omega, ?_⟩
    rw [h0]
    exact ⟨_, rfl, hq, hcnt, ht, rfl, rfl⟩
  · have hrun (j : Nat) (hj : j < s.cfg.allowedRetries.toNat) :
        Host.Core.run Sys2Proof.core j (waiting k a s 1 []) = .next (waiting k a s (1 + j) []) :=
      run_waiting (f := fun _ => []) hs (fun _ _ => step_noInput rfl rfl) le_rfl (by omega)
    have hcount {c : Nat} (hle : c ≤ s.cfg.allowedRetries.toNat) : (waiting k a s c []).cnt.toNat = c :=
      waiting_cnt_toNat (by omega) k a s []
    refine ⟨waiting k a s 1 [], hin ▸ exec_request_waiting hi hw hc hq hcnt hd hN, fun j hj => ?_, ?_⟩
    · rw [Nat.add_comm j 1]
      exact ⟨_, hrun j hj, rfl, hcount (by omega), rfl, rfl, rfl⟩
    · obtain ⟨n, hn⟩ := Nat.exists_eq_add_of_le' hN
      have hlast : step (waiting k a s (n + 1) []) = _ :=
        (step_noInput rfl rfl).trans (exec_tick_exhausts (s := waiting k a s (n + 1) []) rfl rfl hN
          (by rw [hcount (by omega)]; exact hn.le) (by rw [hcount (by omega)]; omega))
      have hfirst := hrun n (by omega)
      rw [Nat.add_comm 1 n] at hfirst
      rw [hn]
      refine ⟨_, run_snoc hfirst hlast, rfl, rfl, rfl, rfl, ?_⟩
      simp [attemptFrom, headDone, waiting, doneRecord, tx, h]

/-- Settles O36: the request and m - 1 TICKs send the frame m times, the answer sets the field and leaves the command
as it is, and the last TICK ends it on either side of the budget. -/
theorem answeredCommandRun : Obligations.AnsweredCommandRun := by
  intro i r k a m s hi hw hr hc hq hcnt hs hm hN hin h
  obtain ⟨hrw, hrx⟩ := wf_isReceive_of_answers hr
  obtain ⟨n, rfl⟩ := Nat.exists_eq_add_of_le' hm
  obtain ⟨hmax, -, hd⟩ := id hs
  have hrequest : exec i s = .next (waiting k a s 1 (answerAfter r n)) := by
    rw [exec_request_waiting hi hw hc hq hcnt hd (by omega), hin]
    rfl
  have hwait : Host.Core.run Sys2Proof.core n (waiting k a s 1 (answerAfter r n)) =
      .next (waiting k a s (n + 1) (answerAfter r 0)) := by
    rw [Nat.add_comm n 1]
    exact run_waiting hs (fun _ _ => step_input rfl rfl) le_rfl (by omega)
  obtain ⟨t, he, hv, mid, ho, hone, hmeas⟩ := exec_answer (s := waiting k a s (n + 1) [encode .tick]) hr hc
  have heff := exec_receiveEffect hrx he
  have hcfg : t.cfg = s.cfg := heff.cfg
  have htc : t.cnt.toNat = n + 1 := by
    rw [heff.cnt]
    exact waiting_cnt_toNat (by omega) k a s _
  have hanswer : step (waiting k a s (n + 1) (answerAfter r 0)) = .next t :=
    (step_input rfl (decodeEncodeRoundTrip r hrw)).trans he
  have hlast : step t = _ := (step_input heff.inputs rfl).trans
    (exec_tick_answered (s := { t with inputs := [] }) heff.timerArmed heff.q
      (by rw [htc]; omega) (by rw [htc, hcfg]; exact hN) (by rw [hcfg]; exact hmax) hv)
  have hrun := run_snoc (run_snoc hwait hanswer) hlast
  refine ⟨_, _, mid, hrequest, hrun, rfl, rfl, rfl, rfl, hv, hone, hmeas, ?_⟩
  simp [headDone, ho, htc, hcfg, waiting, doneRecord, h]

/-- Settles O40: each event by its law after CLOSE, and only RESET opens again. -/
theorem afterClose : Obligations.AfterClose := by
  intro s hc
  refine ⟨fun w hw => ?_, fun hs => ?_, fun i hi => exec_receive_of_closed hi hc, fun n => ⟨_, rfl, rfl⟩,
    fun i t hi h => ?_⟩
  · obtain ⟨k, a, hr⟩ := requestOf_of_legal hw
    exact congrArg Outcome.next ((requestWord_of_some hr s).trans (submit_closed hc))
  · have ht := hs.timerArmed_of_closed hc
    exact ⟨ht, fun t => by simp [exec_tick_of_disarmed ht]⟩
  · obtain ⟨hclose, -, hother⟩ := closedFlagWriters i s t h
    by_cases hcl : i = .close
    · exact hclose hcl
    · rw [hother hcl hi, hc]

/-- Settles O58: no attempt on a budget of at most one finds its field set, and no other event completes a command with
a success or sends a frame. -/
theorem smallBudgetsNeverSucceed : Obligations.SmallBudgetsNeverSucceed :=
  fun _ _ _ => exec_noSuccess

end Sys2Proof.Machine
end

section
/-! The events that stand under no condition: only TICK has one (R190). -/

namespace Sys2Proof.Machine

/-- R245: an event other than TICK completes in every state, whether or not it meets R37. -/
theorem exec_completes_of_ne_tick {i : Instr} (hi : i ≠ .tick) (s : State) : ∃ t : State, exec i s = .next t := by
  cases i
  case tick => exact absurd rfl hi
  all_goals exact ⟨_, rfl⟩

end Sys2Proof.Machine
end

section
/-! The statement of spec/60_exceptions.md, settled. -/

namespace Sys2Proof.Machine

/-- Settles O59: only TICK can stop, and an armed TICK of a state of R37 is enabled (O31). -/
theorem everyEventCompletes : Obligations.EveryEventCompletes := by
  intro i s hs harmed
  by_cases hi : i = .tick
  · rw [hi]
    exact (tickEnabledExactlyWhileArmed.2 s hs).1 (harmed hi)
  · exact exec_completes_of_ne_tick hi s

end Sys2Proof.Machine
end

section
/-! The facts the statements of spec/70_reset_and_hazards.md cite: the next state of RESET on either side of a budget of
zero, the parameters through every event, an idle step, and how far each TICK of a run without input takes the queue. -/

namespace Sys2Proof.Machine

/-! RESET, R270 to R272: the bootstrap command is the one entry of the attempt. -/

theorem resetAll_eq (s : State) :
    resetAll s = attemptFrom [bootEntry s.cfg] { resetElements s with q := [bootEntry s.cfg] } := rfl

/-- The state in which the bootstrap command waits after its first attempt. -/
def awaitingBoot (s : State) : State :=
  { resetElements s with
    q := [bootEntry s.cfg]
    cnt := 1
    timerArmed := true
    out := s.out ++ [txRecord s.cfg (bootEntry s.cfg)] }

/-- R271 with a budget: the bootstrap command is sent and awaited. -/
theorem resetAll_of_budget {s : State} (hN : 1 ≤ s.cfg.allowedRetries.toNat) : resetAll s = awaitingBoot s := by
  rw [resetAll_eq]
  exact (attemptFrom_first (s := { resetElements s with q := [bootEntry s.cfg] }) rfl hN).trans
    (by simp [awaitingBoot])

/-- R271: STATUS reads NEXTH, QLEN, CNT, TIMER and BUSY. -/
theorem regRead_status_awaitingBoot (s : State) : regRead 0x00 (awaitingBoot s) = 0x01010106 := by
  have hstatus : regRead 0x00 (awaitingBoot s) = statusWord (awaitingBoot s) := rfl
  rw [hstatus]
  simp only [statusWord, awaitingBoot, resetElements, List.isEmpty_cons, List.length_singleton]
  rfl

/-- R271: HEAD reads HEADV and BOOT, beside the kind 0 and the handle 0. -/
theorem regRead_head_awaitingBoot {s : State} (hk : s.cfg.bootKind = .queryPm) :
    regRead 0x07 (awaitingBoot s) = 0x00011000 := by
  have hhead : regRead 0x07 (awaitingBoot s) = headWord (awaitingBoot s) := rfl
  rw [hhead, headWord_cons rfl]
  simp only [bootEntry, hk]
  rfl

/-- R271 without a budget: the bootstrap command fails at its first attempt. -/
theorem resetAll_of_noBudget {s : State} (hN : s.cfg.allowedRetries = 0) :
    resetAll s =
      { resetElements s with out := s.out ++ [doneRecord (bootEntry s.cfg) .retryExhausted 0] } := by
  rw [resetAll_eq]
  exact (attemptFrom_noBudget (s := { resetElements s with q := [bootEntry s.cfg] }) _ rfl hN rfl).trans
    (by simp [clearFields])

/-! The parameters, R273. -/

@[simp] theorem accept_cfg (k : Kind) (a : Byte) (s : State) : (accept k a s).cfg = s.cfg := by
  by_cases hq : s.q = []
  · simp [accept_of_empty k a hq, attempt, enqueue]
  · simp [accept_of_ne_nil k a hq, enqueue]

@[simp] theorem closeConnection_cfg (s : State) : (closeConnection s).cfg = s.cfg := by
  unfold closeConnection
  split <;> rfl

@[simp] theorem resetAll_cfg (s : State) : (resetAll s).cfg = s.cfg := attemptFrom_cfg _ _

/-! Without input, R190 and R289: an idle step, and the TICKs until the queue is empty. -/

/-- The machine with no input left and no armed timer (log entry 3). -/
theorem step_idle {s : State} (hi : s.inputs = []) (ht : s.timerArmed = false) : step s = .next s := by
  simp [step, fetch, hi, ht]

theorem CompletesInOrder.trans {s t u : State} (h : CompletesInOrder [] s t) (h' : CompletesInOrder [] t u) :
    CompletesInOrder [] s u := by
  obtain ⟨m, l, ho, hq, hl⟩ := h
  obtain ⟨m', l', ho', hq', hl'⟩ := h'
  rw [List.append_nil] at hq hl hq' hl'
  refine ⟨m + m', l ++ l', ?_, ?_, ?_⟩
  · rw [ho', ho, List.append_assoc]
  · rw [List.append_nil, hq', hq, List.drop_drop]
  · rw [List.append_nil, completions_append, hl, hl', hq, ← List.map_append, ← List.take_add]

/-- R194: when none is left, all have completed. -/
theorem CompletesInOrder.completions_of_empty {s t : State} (h : CompletesInOrder [] s t) (hq : t.q = []) :
    ∃ l : List Record, t.out = s.out ++ l ∧ completions l = s.q.map fun e => (e.handle, e.boot) := by
  obtain ⟨m, l, ho, hdrop, hl⟩ := h
  rw [List.append_nil] at hdrop hl
  have hlen : s.q.length ≤ m := List.drop_eq_nil_iff.1 (hdrop.symm.trans hq)
  rw [List.take_of_length_le hlen] at hl
  exact ⟨l, ho, hl⟩

/-- R191, R192: an attempt makes the head leave, or counts as one more attempt of it. -/
theorem attempt_advances {s : State} (hq : s.q ≠ []) :
    (attempt s).q.length + 1 ≤ s.q.length ∨ ((attempt s).q = s.q ∧ (attempt s).cnt = s.cnt + 1) := by
  obtain ⟨e, rest, hcons⟩ := List.exists_cons_of_ne_nil hq
  have headLeaves (o : DoneOutcome) (r : Word) :
      (attemptFrom rest (finish e rest o r (beginAttempt e s))).q.length + 1 ≤ (e :: rest).length := by
    obtain ⟨m, -, hdrop, -⟩ := attemptFrom_fifo rest (finish e rest o r (beginAttempt e s)) rfl
    simp [hdrop]
  simp only [attempt, hcons, attemptFrom]
  split
  · exact .inl (headLeaves _ _)
  · split
    · exact .inl (headLeaves _ _)
    · exact .inr ⟨by simp [hcons], by simp⟩

/-- A bound of the TICKs until the queue is empty: N for each entry, less those the head has had. The attempt that
brought the head to the front is not a TICK of its own. -/
def ticksLeft (s : State) : Nat := s.cfg.allowedRetries.toNat * s.q.length - (s.cnt.toNat - 1)

theorem Inv.ticksLeft_pos {s : State} (h : Inv s) (hq : s.q ≠ []) : 0 < ticksLeft s := by
  obtain ⟨hc, hN⟩ := h.counting hq
  have hmul := Nat.le_mul_of_pos_right s.cfg.allowedRetries.toNat (List.length_pos_iff.2 hq)
  unfold ticksLeft
  omega

/-- R193: either way of `attempt_advances` brings the end of the queue nearer. -/
theorem Inv.ticksLeft_attempt_lt {s : State} (h : Inv s) (hq : s.q ≠ []) :
    ticksLeft (attempt { s with timerArmed := false }) < ticksLeft s := by
  have hpos := h.ticksLeft_pos hq
  have hcfg : (attempt { s with timerArmed := false }).cfg = s.cfg := attemptFrom_cfg _ _
  obtain ⟨hc, hN⟩ := h.counting hq
  have hmax := h.params.1
  unfold ticksLeft at hpos ⊢
  rw [hcfg]
  have hadv := attempt_advances (s := { s with timerArmed := false }) hq
  dsimp only at hadv
  rcases hadv with hlen | ⟨hsame, hcnt⟩
  · have hmul := Nat.mul_le_mul_left s.cfg.allowedRetries.toNat hlen
    rw [Nat.mul_succ] at hmul
    omega
  · rw [hsame, hcnt, add_one_toNat (by omega)]
    omega

theorem Inv.step_noInput_of_ne_nil {s : State} (h : Inv s) (hi : s.inputs = []) (hq : s.q ≠ []) :
    step s = .next (attempt { s with timerArmed := false }) := by
  have ht := h.timer.1 hq
  obtain ⟨e, rest, hcons⟩ := List.exists_cons_of_ne_nil hq
  rw [step_noInput hi ht, exec_tick ht hcons, attempt]
  simp only [hcons]

/-- A run of TICKs, one attempt each, until the queue is empty. -/
theorem run_until_empty {s : State} (hs : Inv s) (hi : s.inputs = []) :
    ∃ (n : Nat) (t : State),
      n ≤ ticksLeft s ∧ Host.Core.run Sys2Proof.core n s = .next t ∧ t.q = [] ∧ CompletesInOrder [] s t := by
  by_cases hq : s.q = []
  · exact ⟨0, s, Nat.zero_le _, rfl, hq, .of_none_left (l := []) (by simp) (by simp) rfl⟩
  · have hlt := hs.ticksLeft_attempt_lt hq
    have hinv : Inv (attempt { s with timerArmed := false }) := attemptFrom_inv (hs.ready_disarmed hq)
    have hinputs : (attempt { s with timerArmed := false }).inputs = [] := (attemptFrom_inputs _ _).trans hi
    have hfirst : CompletesInOrder [] s (attempt { s with timerArmed := false }) :=
      attempt_completesInOrder { s with timerArmed := false }
    obtain ⟨n, t, hn, hrun, hempty, hrest⟩ := run_until_empty hinv hinputs
    exact ⟨n + 1, t, by omega, (run_succ (hs.step_noInput_of_ne_nil hi hq)).trans hrun, hempty, hfirst.trans hrest⟩
termination_by ticksLeft s
decreasing_by exact hlt

end Sys2Proof.Machine
end

section
/-! The statements of spec/70_reset_and_hazards.md, settled. -/

namespace Sys2Proof.Machine

open Host (Outcome)

/-- Settles O43: the bootstrap's attempt with a budget and without one, and the two host words of what the first
leaves. -/
theorem resetEvent : Obligations.ResetEvent := by
  intro s
  refine ⟨fun hN => ?_, fun hN => congrArg Outcome.next (resetAll_of_noBudget hN)⟩
  exact ⟨awaitingBoot s, congrArg Outcome.next (resetAll_of_budget hN), rfl, regRead_status_awaitingBoot s,
    regRead_head_awaitingBoot⟩

/-- Settles O51: over the cases of an event, none writes the parameters. -/
theorem parametersNeverChange : Obligations.ParametersNeverChange := by
  intro i s t h
  rcases exec_cases h with ⟨-, he⟩ | ⟨-, st, n, rfl⟩ | ⟨-, k, a, -, -, -, rfl⟩ | ⟨-, rfl⟩ | ⟨-, rfl⟩ |
    ⟨-, -, -, rfl⟩ | ⟨n, -, rfl⟩
  · exact he.cfg
  · exact respond_cfg st n s
  · exact accept_cfg k a s
  · exact resetAll_cfg s
  · exact closeConnection_cfg s
  · exact attemptFrom_cfg s.q { s with timerArmed := false }
  · rfl

/-- Settles O57: the run of `run_until_empty`, within N TICKs for each entry, and what it has completed is the whole
queue. -/
theorem everyCommandCompletes : Obligations.EveryCommandCompletes := by
  intro s hs hi
  obtain ⟨n, t, hn, hrun, hempty, hfifo⟩ := run_until_empty hs hi
  obtain ⟨l, ho, hl⟩ := hfifo.completions_of_empty hempty
  exact ⟨n, t, l, hn.trans (Nat.sub_le _ _), hrun, hempty, ho, hl⟩

/-- Settles O6: the two laws of a step without input, `step_noInput` and `step_idle`. -/
theorem stepWithoutInput : Obligations.StepWithoutInput :=
  fun _ hi => ⟨step_noInput hi, step_idle hi⟩

/-- Settles O44: the parameters of `State.reset` have a budget, and the bootstrap's frame is the one it has put out. -/
theorem resetStateIsWhatResetLeaves : Obligations.ResetStateIsWhatResetLeaves :=
  congrArg Outcome.next (resetAll_of_budget (s := { State.reset with out := [] }) (by decide))

end Sys2Proof.Machine
end
